-- ==== Sys2Proof/Config.lean ====
section
/-! DEFINITION. The configuration of spec/00_scope.md R5: one field for every parameter of its table. Ten of them fix the
shape of the machine (how many channels, glyphs and cells, how wide a word); they are the fields of `Config.Shape`, over
which the types of the machine are written. The other ones are the fields of `Config.Params`. An instance is a shape and
parameters for it; the values of the reference instance are `Machine.referenceShape` and `Machine.referenceConfig`
(Machine/Reference.lean). F_CLK and BASE, which R5 leaves OPEN, have there a value without a body, of which nothing can be
proved. How a rule that writes a number of the reference instance reads in an instance of another shape is log 23. -/

namespace Sys2Proof.Config

/-- The parameters of R5 that fix the shape of the machine. The bounds say for which values the rules have a meaning. -/
structure Shape where
  /-- N_BTN: debouncer channels (D2). -/
  nBtn : Nat
  /-- TS_W: width of the millisecond time and of each time stamp register (D4). -/
  tsW : Nat
  /-- SYNC_STAGES: synchroniser flip-flops per button line (D3). -/
  syncStages : Nat
  /-- N_GLYPH: glyphs in the ROM (R30). -/
  nGlyph : Nat
  /-- NUM_PIXELS: matrix cells, the words of a frame (D8). PRESUMED by the spec itself (K1), log 13. -/
  numPixels : Nat
  /-- PCT_W: width of one percentage operand (D11). -/
  pctW : Nat
  /-- DEV_W: width of one device channel value. -/
  devW : Nat
  /-- WORD_W: bits of a packed colour word (D13). -/
  wordW : Nat
  /-- CMD_W: width of a command word (D14). -/
  cmdW : Nat
  /-- RSP_W: width of a response word (D14). -/
  rspW : Nat
  /-- The channels are A and B at most: a command names one with one bit (R40). -/
  nBtn_le : nBtn ≤ 2 := by decide
  /-- A synchroniser has an output (R15). -/
  syncStages_pos : 0 < syncStages := by decide
  /-- TXD, WIDX and BIDX have a value (R18). -/
  nGlyph_pos : 0 < nGlyph := by decide
  numPixels_pos : 0 < numPixels := by decide
  wordW_pos : 0 < wordW := by decide
  deriving DecidableEq, Repr

/-- A command word of CMD_W bits, as the port carries it. -/
abbrev Shape.Word (S : Shape) := BitVec S.cmdW

/-- A response word of RSP_W bits. -/
abbrev Shape.Rsp (S : Shape) := BitVec S.rspW

/-- A millisecond time stamp of TS_W bits. -/
abbrev Shape.Stamp (S : Shape) := BitVec S.tsW

/-- A percentage of PCT_W bits (R41). -/
abbrev Shape.Pct (S : Shape) := BitVec S.pctW

/-- A device channel value of DEV_W bits. -/
abbrev Shape.Dev (S : Shape) := BitVec S.devW

/-- A packed colour word of WORD_W bits (R31). -/
abbrev Shape.Packed (S : Shape) := BitVec S.wordW

/-- The two candidate roundings of halves (R5 ROUND_HALF, U2). -/
inductive RoundHalf where
  | up
  | even
  deriving DecidableEq, Repr

/-- The parameters of R5 that fix no type. -/
structure Params (S : Shape) where
  /-- DEBOUNCE_MS: the debounce window in milliseconds (R54). -/
  debounceMs : Nat
  /-- GLYPH_ROM: N_GLYPH masks of NUM_PIXELS bits (R61, D9, U11). -/
  glyphRom : Vector (BitVec S.numPixels) S.nGlyph
  /-- LIT_COLOUR: the percentages (R, G, B) of a lit cell (R63). -/
  litColour : S.Pct × S.Pct × S.Pct
  /-- F_CLK in hertz (D19). -/
  fClkHz : Nat
  /-- T_BIT in nanoseconds (R79; D19). -/
  tBitNs : Nat
  /-- T0H in nanoseconds (R79; D19). -/
  t0hNs : Nat
  /-- T1H in nanoseconds (R79; D19). -/
  t1hNs : Nat
  /-- T_RESET in nanoseconds (R80; D20). -/
  tResetNs : Nat
  /-- TS_RESET: the value of both time stamp registers at reset (R93; D6, U12). -/
  tsReset : S.Stamp
  /-- ROUND_HALF: the rounding of halves in the codec (R67; D12, U2). -/
  roundHalf : RoundHalf
  /-- BASE: address of the command port in a host's memory map, read by no rule (R35; D14). -/
  base : Nat
  deriving DecidableEq, Repr

/-- F_CLK of the reference instance: OPEN (R5, D19), log 12. -/
opaque fClkHz : Nat

/-- BASE of the reference instance: OPEN (R5, D14), log 12. -/
opaque base : Nat

end Sys2Proof.Config
end

