-- ==== Sys2Proof/Word.lean ====
section
/-! DEFINITION. The words of the encoding (spec/30_encoding.md R38 to R42): bits are numbered from 0, all values unsigned
(R8). They are those of the table of R38, which fixes every bit. -/

namespace Sys2Proof

/-- A command word as R38 lays it out: 32 bits. -/
abbrev Word := BitVec 32

/-- A percentage field of ENCODE: 7 bits, 0 to 127 (R41). -/
abbrev Pct := BitVec 7

end Sys2Proof
end

