-- ==== Sys2Proof/Syntax.lean ====
section
/-! DEFINITION. The command set (spec/30_encoding.md R38, R39) and the assembler statements (R45, R46). -/

namespace Sys2Proof

/-- A debouncer channel: A is channel 0, B is channel 1 (R40, D2). -/
inductive Button where
  | A
  | B
  deriving DecidableEq, Repr

/-- The channel's number: A is 0 and B is 1 (R40, D2). -/
def Button.index : Button → Fin 2
  | .A => 0
  | .B => 1

/-- The six legal commands, one per row of spec/opcode_table.json, with their operand fields. -/
inductive Instr where
  /-- R49. -/
  | nop
  /-- R50. -/
  | rdstat
  /-- R56: `c` is the channel. -/
  | ack (c : Button)
  /-- R57: `c` is the channel. -/
  | rdts (c : Button)
  /-- R70: percentages of red, green and blue, in R41's field order. -/
  | encode (pr pg pb : Pct)
  /-- R72, R73: the 8-bit digit field. -/
  | render (d : BitVec 8)
  deriving DecidableEq, Repr

/-- One assembler statement of R45, its operands as the programmer writes them, before the range check. -/
inductive Source where
  | nop
  | rdstat
  | ack (c : Int)
  | rdts (c : Int)
  | encode (pr pg pb : Int)
  | render (d : Int)
  deriving DecidableEq, Repr

/-- The three pseudo-instructions of R46, which are host-side code. -/
inductive Pseudo where
  | waitIdle
  | waitPress
  | ackAll
  deriving DecidableEq, Repr

end Sys2Proof
end

