-- ==== Sys2Proof/WellFormed.lean ====
section
/-! DEFINITION. What a command word must satisfy to be legal (spec/30_encoding.md R39, R43), what an assembler statement
must satisfy (R45), and what an instruction must satisfy (nothing beyond its types: R40, R41, R42). -/

namespace Sys2Proof

/-- One row of R39: a command word `w` is this command iff `w AND mask = match`. -/
structure OpcodeRow where
  mnemonic : String
  opcode : BitVec 4
  pattern : Word
  mask : Word
  deriving DecidableEq, Repr

/-- The rows of R39. -/
def opcodeRows : List OpcodeRow :=
  [ ⟨"NOP", 0x0, 0x00000000, 0xFFFFFFFF⟩,
    ⟨"RDSTAT", 0x1, 0x10000000, 0xFFFFFFFF⟩,
    ⟨"ACK", 0x2, 0x20000000, 0xFFFFFFFE⟩,
    ⟨"RDTS", 0x3, 0x30000000, 0xFFFFFFFE⟩,
    ⟨"ENCODE", 0x4, 0x40000000, 0xFFE00000⟩,
    ⟨"RENDER", 0x5, 0x50000000, 0xFFFFFF00⟩ ]

/-- R39: `(cmd AND mask) = match`. -/
def OpcodeRow.accepts (r : OpcodeRow) (w : Word) : Bool := w &&& r.mask == r.pattern

/-- The opcode field `op = cmd[31:28]` (R38). -/
def opcodeOf (w : Word) : BitVec 4 := w.extractLsb' 28 4

/-- Check 1 on a word, the negation of R43(a): its opcode is one of a row of R39. -/
def opcodeAssigned (w : Word) : Bool := opcodeRows.any fun r => r.opcode == opcodeOf w

/-- Check 2 on a word, the negation of R43(b): the row of R39 with the word's opcode, if there is one, matches it. -/
def reservedBitsZero (w : Word) : Bool := opcodeRows.all fun r => r.opcode != opcodeOf w || r.accepts w

/-- A legal command word: neither R43(a) nor R43(b) holds. -/
def legalWord (w : Word) : Bool := opcodeAssigned w && reservedBitsZero w

/-- `lo ≤ x ≤ hi` (R9's `in`). -/
def inRange (lo hi x : Int) : Bool := decide (lo ≤ x) && decide (x ≤ hi)

/-- The operand ranges of R45: an assembler rejects an operand outside its range. -/
def Source.wellFormed : Source → Bool
  | .nop => true
  | .rdstat => true
  | .ack c => inRange 0 1 c
  | .rdts c => inRange 0 1 c
  | .encode pr pg pb => inRange 0 127 pr && inRange 0 127 pg && inRange 0 127 pb
  | .render d => inRange (-128) 255 d

/-- Every value of every operand field is legal (R40: every `c`; R41: all 128 values; R42: all 256 values), so the
operand types alone make an instruction well formed: there is no further check. -/
def Instr.wellFormed : Instr → Bool
  | .nop => true
  | .rdstat => true
  | .ack _ => true
  | .rdts _ => true
  | .encode _ _ _ => true
  | .render _ => true

end Sys2Proof
end

