-- ==== Sys2Proof/Decode.lean ====
section
/-! DEFINITION. The decoder of command words, total and rejecting by name (spec/30_encoding.md R38, R43), and the
encoder (R45, R39). A command crosses the interface as one whole 32-bit word, so no byte order applies (R32). -/

namespace Sys2Proof

/-- Why a word is no command: the two cases of R43. Both raise IllegalCommand (R83). -/
inductive IllegalReason where
  /-- R43(a): op is 0x6 to 0xF. -/
  | reservedOpcode
  /-- R43(b): op is 0x0 to 0x5 and a bit outside the operand fields is 1. -/
  | reservedBit
  deriving DecidableEq, Repr

/-- The channel a 1-bit field names: 0 is A, 1 is B (R40). -/
def Button.ofBit (c : BitVec 1) : Button := if c = 0 then .A else .B

/-- The channel's number as the 1-bit field (R40). -/
def Button.toBit (b : Button) : BitVec 1 := BitVec.ofNat 1 b.index

/-- `i` if the `n` reserved bits from bit `lo` up are zero (R38's `0` bits), else R43(b). -/
def checkReserved (w : Word) (lo n : Nat) (i : Instr) : Except IllegalReason Instr :=
  if w.extractLsb' lo n = 0 then .ok i else .error .reservedBit

/-- The decoder, by the fields of R38. -/
def decode (w : Word) : Except IllegalReason Instr :=
  match (w.extractLsb' 28 4).toNat with
  | 0x0 => checkReserved w 0 28 .nop
  | 0x1 => checkReserved w 0 28 .rdstat
  | 0x2 => checkReserved w 1 27 (.ack (Button.ofBit (w.extractLsb' 0 1)))
  | 0x3 => checkReserved w 1 27 (.rdts (Button.ofBit (w.extractLsb' 0 1)))
  | 0x4 => checkReserved w 21 7 (.encode (w.extractLsb' 14 7) (w.extractLsb' 7 7) (w.extractLsb' 0 7))
  | 0x5 => checkReserved w 8 20 (.render (w.extractLsb' 0 8))
  | _ => .error .reservedOpcode

/-- The encoder: R45's column "encoding". -/
def encode : Instr → Word
  | .nop => 0x00000000
  | .rdstat => 0x10000000
  | .ack c => 0x20000000 ||| c.toBit.setWidth 32
  | .rdts c => 0x30000000 ||| c.toBit.setWidth 32
  | .encode pr pg pb => 0x40000000 ||| (pr.setWidth 32 <<< 14) ||| (pg.setWidth 32 <<< 7) ||| pb.setWidth 32
  | .render d => 0x50000000 ||| d.setWidth 32

/-- The command word whose bits are the `nbits` low bits of `w`, every higher bit 0. -/
def tableWord (nbits w : Nat) : Word := BitVec.ofNat 32 (w % 2 ^ nbits)

/-- What the decoder reads from an opcode-table word, `none` where it rejects it. -/
def decodeTableWord (nbits w : Nat) : Option Instr :=
  match decode (tableWord nbits w) with
  | .ok i => some i
  | .error _ => none

end Sys2Proof
end

