-- ==== Sys2Proof/Machine/Reference.lean ====
section
/-! DEFINITION. The reference instance of spec/00_scope.md R5: the value of every parameter (log 15), with the glyph ROM of
spec/42_glyph_rom.md R61; and the types of its words. -/

namespace Sys2Proof.Machine

/-- The shape of the reference instance: the column "value" of R5. NUM_PIXELS is PRESUMED by the spec itself (K1), log 13. -/
abbrev referenceShape : Config.Shape :=
  { nBtn := 2
    tsW := 32
    syncStages := 2
    nGlyph := 10
    numPixels := 25
    pctW := 7
    devW := 8
    wordW := 24
    cmdW := 32
    rspW := 32 }

/-- The reference glyph ROM: `G[0]` to `G[9]`, bit `i` being cell `i` (R61). -/
def referenceRom : Vector (BitVec 25) 10 :=
  #v[0x0E8C62E, 0x0E210C4, 0x1F0BA0F, 0x0F83A0F, 0x0847D29, 0x0F83C3F, 0x0E8BC2E, 0x042221F, 0x0E8BA2E, 0x0E87A2E]

/-- The column "value" of R5. T_BIT, T0H, T1H and T_RESET are PRESUMED by the spec itself (K3, K4), log 14. -/
def referenceConfig : Config.Params referenceShape :=
  { debounceMs := 200
    glyphRom := referenceRom
    litColour := (100, 0, 0)
    fClkHz := Config.fClkHz
    tBitNs := 1250
    t0hNs := 400
    t1hNs := 800
    tResetNs := 280000
    tsReset := 0
    roundHalf := .up
    base := Config.base }

/-- The parameters of an instance of the reference shape. -/
abbrev Params := Config.Params referenceShape

/-- A response word of the reference shape. -/
abbrev Rsp := referenceShape.Rsp

/-- A time stamp of the reference shape. -/
abbrev Stamp := referenceShape.Stamp

/-- A digit, the index of a glyph, of the reference shape. -/
abbrev Digit := Fin referenceShape.nGlyph

/-- A cell, the index of a word of a frame, of the reference shape. -/
abbrev Cell := Fin referenceShape.numPixels

end Sys2Proof.Machine
end

