-- ==== Sys2Proof/Machine/Timing.lean ====
section
/-! DEFINITION. The times of spec/44_serial_engine.md R79 and R80 in clock cycles, over the
frequency F_CLK of the instance. The two conversions are irreducible: nothing needs their large literals unfolded. -/

namespace Sys2Proof.Machine

variable {S : Config.Shape}

/-- `ceil(T × F_CLK)` for a time in nanoseconds (R18, R75). -/
@[irreducible] def ceilCycles (P : Config.Params S) (ns : Nat) : Nat := (ns * P.fClkHz + 999999999) / 1000000000

/-- `round(T × F_CLK)` for a time in nanoseconds (R79). DESIGN CHOICE, log 11: halves go up, as in R67. -/
@[irreducible] def roundCycles (P : Config.Params S) (ns : Nat) : Nat :=
  (2 * ns * P.fClkHz + 1000000000) / 2000000000

/-- Clock cycles of one bit period T_BIT (R79). -/
def bitCycles (P : Config.Params S) : Nat := roundCycles P P.tBitNs

/-- Clock cycles for which a bit of value `v` is high: T1H or T0H (R79). -/
def highCycles (P : Config.Params S) (v : Bool) : Nat := roundCycles P (if v then P.t1hNs else P.t0hNs)

/-- The full latch gap in clock cycles, `ceil(T_RESET × F_CLK)` (R18, R75, R93). -/
def gapCycles (P : Config.Params S) : Nat := ceilCycles P P.tResetNs

end Sys2Proof.Machine
end

