-- ==== Sys2Proof/Machine/State.lean ====
section
/-! DEFINITION. The state of TI-LPE (spec/10_state.md), the environment data its agents hold, and reset (R93). The types
that depend on the shape of the instance (spec/00_scope.md R5) are written for any shape in the namespace `Shaped`;
`Machine.State`, `Machine.Turn` and so on are those of the reference shape. -/

namespace Sys2Proof.Machine

/-- The SPE state TXST (R17): three values, the encoding 0b11 is never reached (U9). -/
inductive TxState where
  | idle
  | shift
  | latch
  deriving DecidableEq, Repr

/-- A symbol of the line trace (R20). -/
inductive Sym where
  | bit (v : Bool)
  | latch
  deriving DecidableEq, Repr

end Sys2Proof.Machine

namespace Sys2Proof.Shaped

open Machine

/-- The state of one debouncer channel (R13 to R15). -/
structure Channel (S : Config.Shape) where
  /-- PEND[b] (R13). -/
  pend : Bool
  /-- TS[b] (R14). -/
  ts : S.Stamp
  /-- SYNC[b], bit k being SYNC[b][k]: the pin enters at bit 0 (R15, R52). -/
  sync : BitVec S.syncStages
  /-- LVL[b], the previous synchronised level (R15). -/
  lvl : Bool
  deriving DecidableEq, Repr

/-- What the input pins hold at one rising edge of `clk` (R23), as the block samples them. `cmd_data` is the head of
`State.cmds`. A level drawn by the environment for a pulse shorter than a cycle, or for a metastable sample, is the
value found here (R101, log 17). -/
structure CycleIn (S : Config.Shape) where
  /-- `rst_n`: false puts the block in reset (R93). -/
  rstN : Bool
  /-- `btn_n[0]`: true is released, false is pressed. -/
  btnNA : Bool
  /-- `btn_n[1]`. -/
  btnNB : Bool
  /-- `now_ms` in this cycle. -/
  nowMs : S.Stamp
  /-- `cmd_valid`: the host presents its next command word, if it has one. -/
  cmdValid : Bool
  deriving DecidableEq, Repr

/-- Who takes the next step: one of the agents of R7, or the hardware clock for one whole cycle (R26;
log 1). -/
inductive Turn (S : Config.Shape) where
  /-- HOST presents its next command word (R48). -/
  | host
  /-- BTN_A or BTN_B: `Edge(b, NOW)` (R53). -/
  | btn (b : Button)
  /-- CLOCK: the environment sets NOW (R7, R19). -/
  | clock (t : S.Stamp)
  /-- SPE: one SPE step, nothing when TXST = IDLE (R74 to R77). -/
  | spe
  /-- One rising edge of `clk` with these input pins (R26, R52, R93). -/
  | cycle (io : CycleIn S)
  deriving DecidableEq, Repr

/-- The whole machine: the block (file 10) and the environment data its agents hold. -/
structure State (S : Config.Shape) where
  /-- The configuration this instance is built with (R5). It is not state of the block (R25) and no step writes it; State
  carries it so that `exec` and `step` can read it (log 22). -/
  config : Config.Params S
  /-- PEND, TS, SYNC, LVL of channel A. A channel beyond N_BTN keeps its reset values (log 23). -/
  chA : Channel S
  /-- PEND, TS, SYNC, LVL of channel B. -/
  chB : Channel S
  /-- ILL, sticky (R16). -/
  ill : Bool
  /-- TXST (R17; log 16). -/
  txst : TxState
  /-- TXD (R18), 4 bits: the digits 0 to 9 only, as U1 asks (log 16). -/
  txd : Fin S.nGlyph
  /-- WIDX (R18), 5 bits, range 0 to NUM_PIXELS-1. -/
  widx : Fin S.numPixels
  /-- BIDX (R18), 5 bits, range 0 to WORD_W-1. -/
  bidx : Fin S.wordW
  /-- LCNT, the hidden latch-gap counter: clock cycles of the gap still to run (R18). -/
  lcnt : Nat
  /-- PCNT, the hidden bit-phase counter: clock cycles of this bit period already run (R18). -/
  pcnt : Nat
  /-- dout, the serial line (R23). -/
  dout : Bool
  /-- rsp_valid (R24). -/
  rspValid : Bool
  /-- rsp_data (R24). -/
  rspData : S.Rsp
  /-- LT, the line trace since the last reset (R20). -/
  lt : List Sym
  /-- The line trace of the time before the last reset, oldest first (the model's own field, log 7). -/
  ltBefore : List Sym
  /-- Every response the host has had, oldest first (R6, log 3). -/
  responses : List S.Rsp
  /-- NOW, the millisecond time the environment shows (R19). -/
  now : S.Stamp
  /-- The command words the host will present, the first one first (R27, log 3). -/
  cmds : List S.Word
  /-- Who moves in the next steps, the first one first (R7, log 2). -/
  turns : List (Turn S)
  deriving DecidableEq, Repr

end Sys2Proof.Shaped

namespace Sys2Proof.Machine

/-- The state of the machine: of an instance of the reference shape. -/
abbrev State := Shaped.State referenceShape

/-- The input pins of such an instance. -/
abbrev CycleIn := Shaped.CycleIn referenceShape

/-- The turns of such an instance. -/
abbrev Turn := Shaped.Turn referenceShape

/-- The reasons to stop with a fault: none, since R48 says "There is no fault outcome and no refusal outcome" and R84
lists every other condition with a defined behaviour (log 21). -/
inductive Fault where
  deriving DecidableEq, Repr

/-- The reasons to refuse an instruction. -/
inductive Refusal where
  /-- An instruction whose meaning is not written yet, raised by exec's arm for it and nowhere else (safe). No arm of
  this model raises it. -/
  | notModelled (mnemonic : String)
  deriving DecidableEq, Repr

/-- The state of a channel at reset (R93): PEND = 0, TS = TS_RESET, SYNC and LVL all 1 (released). -/
def channelReset {S : Config.Shape} (P : Config.Params S) : Shaped.Channel S :=
  { pend := false, ts := P.tsReset, sync := BitVec.allOnes S.syncStages, lvl := true }

/-- The first bit of a word to be sent, WORD_W-1: 23 in the reference shape (R18, R73). -/
def topBit (S : Config.Shape) : Fin S.wordW := ⟨S.wordW - 1, Nat.sub_one_lt_of_lt S.wordW_pos⟩

/-- An instance right after reset (R93). The host has presented nothing yet (log 3), no turn is fixed (log 2). DESIGN
CHOICE: `rspData` (log 4) and `now` (log 5) are 0, where the spec gives no value. -/
def resetOf {S : Config.Shape} (P : Config.Params S) : Shaped.State S :=
  { config := P
    chA := channelReset P
    chB := channelReset P
    ill := false
    txst := .latch
    txd := ⟨0, S.nGlyph_pos⟩
    widx := ⟨0, S.numPixels_pos⟩
    bidx := topBit S
    lcnt := gapCycles P
    pcnt := 0
    dout := false
    rspValid := false
    rspData := 0
    lt := []
    ltBefore := []
    responses := []
    now := 0
    cmds := []
    turns := [] }

/-- The machine right after reset: the reference instance of R5. -/
def State.reset : State := resetOf referenceConfig

end Sys2Proof.Machine
end

