-- ==== Sys2Proof/Machine/Operands.lean ====
section
/-! DEFINITION. What the operand fields stand for (spec/30_encoding.md R40 to R42) and R10's `zext`. -/

namespace Sys2Proof.Machine

variable {S : Config.Shape}

/-- `zext_32(v)` (R10), 32 being the width RSP_W of a response in the reference shape (log 23). -/
def zextRsp {n : Nat} (v : BitVec n) : S.Rsp := v.setWidth S.rspW

/-- The word of R38 that a host presents on a port of CMD_W bits: in the reference shape the presented word itself
(log 23). -/
def commandWord (w : S.Word) : Word := w.setWidth 32

/-- A flag as a 1-bit value. -/
def bitOf (b : Bool) : BitVec 1 := BitVec.ofBool b

/-- The digit of RENDER's field, read unsigned, if it is in range: `in(d, 0, 9)`, 9 being N_GLYPH-1 in the reference shape
(R42, R72; log 23). Its value is `d[3:0]`. -/
def digitInRange (d : BitVec 8) : Option (Fin S.nGlyph) :=
  if h : d.toNat < S.nGlyph then some ⟨d.toNat, h⟩ else none

/-- A percentage field as an operand of PCT_W bits: in the reference shape the field itself, zero-extended and never
scaled (R41; log 23). -/
def percentage (p : Pct) : S.Pct := p.setWidth S.pctW

end Sys2Proof.Machine
end

