-- ==== Sys2Proof/Machine/Ops.lean ====
section
/-! DEFINITION. The named operations over State that the steps share: the channels, the host handshake (R10's Respond and
Hold), the one exception (R83), reset (R93), the line trace (R10's Emit). There is no memory to read or write but the
constant ROM (R30), and no return from an exception, since there is no trap (R88, R89). -/

namespace Sys2Proof.Machine

/-- Has an instance of this shape the channel `b`: is its number below N_BTN (R5)? -/
def hasChannel (S : Config.Shape) (b : Button) : Bool := decide (b.index.val < S.nBtn)

end Sys2Proof.Machine

namespace Sys2Proof.Shaped

variable {S : Config.Shape}

/-- The state of channel `b`. -/
def State.chan (s : State S) : Button → Channel S
  | .A => s.chA
  | .B => s.chB

/-- Writes channel `b` and leaves the other one. -/
def State.setChan (s : State S) (b : Button) (c : Channel S) : State S :=
  { s with
    chA := match b with | .A => c | .B => s.chA
    chB := match b with | .A => s.chB | .B => c }

/-- A channel with another PEND (R13). -/
def Channel.withPend (c : Channel S) (v : Bool) : Channel S := { c with pend := v }

end Sys2Proof.Shaped

namespace Sys2Proof.Machine

variable {S : Config.Shape}

/-- Writes PEND[b] alone (R13). -/
def setPend (b : Button) (v : Bool) (s : Shaped.State S) : Shaped.State S := s.setChan b ((s.chan b).withPend v)

/-- R10's `Respond(v)`: the presented command is accepted and leaves the host's list; its response is offered in the
next cycle (R24) and joins the host's sequence of responses (R6). -/
def respond (v : S.Rsp) (s : Shaped.State S) : Shaped.State S :=
  { s with cmds := s.cmds.tail, rspValid := true, rspData := v, responses := s.responses ++ [v] }

/-- R10's `Hold`: the command is not accepted, the host keeps presenting it, and no state changes. -/
def hold (s : Shaped.State S) : Host.Outcome (Shaped.State S) Fault Refusal := .next s

/-- R10's `Emit(x)`: appends a symbol to LT. -/
def emit (x : Sym) (s : Shaped.State S) : Shaped.State S := { s with lt := s.lt ++ [x] }

/-- Taking the one exception, IllegalCommand (R83): ILL is set, the response is 0, nothing else is recorded. -/
def raiseIllegalCommand (s : Shaped.State S) : Shaped.State S := respond 0x00000000 { s with ill := true }

/-- Reset of the block (R93), from any state: every register takes its reset value, and the trace starts anew (R20), what
it held before being kept in `ltBefore` (log 7). What belongs to the environment stays: NOW (R19), the host's commands
and the responses it has had, the turns (log 20). -/
def resetBlock (s : Shaped.State S) : Shaped.State S :=
  { resetOf s.config with
    ltBefore := s.ltBefore ++ s.lt
    responses := s.responses
    now := s.now
    cmds := s.cmds
    turns := s.turns }

/-- Runs `f` on the next state of an outcome, and stops where the outcome stops. -/
def andThen (o : Host.Outcome (Shaped.State S) Fault Refusal) (f : Shaped.State S → Shaped.State S) :
    Host.Outcome (Shaped.State S) Fault Refusal :=
  match o with
  | .next s => .next (f s)
  | .fault r => .fault r
  | .refused r => .refused r

end Sys2Proof.Machine
end

