-- ==== Sys2Proof/Machine/Codec.lean ====
section
/-! DEFINITION. The colour codec and ENCODE (spec/43_color_codec.md). -/

namespace Sys2Proof.Machine

variable (S : Config.Shape)

/-- The largest device value: 255 in the reference shape, where DEV_W = 8 gives "0 to 255" (R5; log 23). -/
def fullScale : Nat := 2 ^ S.devW - 1

/-- The unclamped device value `round(255 × p / 100)`, for either rounding of halves, the parameter ROUND_HALF (R67; U2):
the quotient, one more above the half, and at the half one more if halves go up or the quotient is odd. -/
def convRaw (r : Config.RoundHalf) (p : Nat) : Nat :=
  match r with
  | .up => (fullScale S * p + 50) / 100
  | .even =>
    let q := fullScale S * p / 100
    let rest := fullScale S * p % 100
    if rest < 50 then q else if 50 < rest then q + 1 else if q % 2 = 0 then q else q + 1

/-- `conv(p)`: 0 for a 0 percentage (R66), else the rounded value clamped to 255 (R68). -/
def conv (r : Config.RoundHalf) (p : S.Pct) : S.Dev :=
  if p = 0 then 0 else BitVec.ofNat S.devW (min (convRaw S r p.toNat) (fullScale S))

/-- The packed word `{conv(pg), conv(pr), conv(pb)}`: green in bits 23:16, red in 15:8, blue in 7:0 (R69, R31), in
WORD_W bits. -/
def packColour (r : Config.RoundHalf) (pr pg pb : S.Pct) : S.Packed :=
  (conv S r pg ++ conv S r pr ++ conv S r pb).setWidth S.wordW

variable {S}

/-- ENCODE pr, pg, pb: responds with the packed word, zero-extended; accepted even while busy (R70). -/
def execEncode (pr pg pb : Pct) (s : Shaped.State S) : Host.Outcome (Shaped.State S) Fault Refusal :=
  .next (respond (zextRsp (packColour S s.config.roundHalf (percentage pr) (percentage pg) (percentage pb))) s)

end Sys2Proof.Machine
end

