-- ==== Sys2Proof/Machine/Flags.lean ====
section
/-! DEFINITION. The flags and the outputs computed from the state: BUSY (spec/10_state.md R17), the status word (R21), irq
(R22), cmd_ready (R24). -/

namespace Sys2Proof.Shaped

variable {S : Config.Shape}

/-- BUSY: `TXST ≠ IDLE` (R17). -/
def State.busy (s : State S) : Bool := s.txst != .idle

/-- LATCHING: `TXST = LATCH` (R17, R21). -/
def State.latching (s : State S) : Bool := s.txst == .latch

end Sys2Proof.Shaped

namespace Sys2Proof.Machine

variable {S : Config.Shape}

/-- The status word of R21 and R50: `zext_32({ILL, TXST = LATCH, TXST ≠ IDLE, PEND[1], PEND[0]})`. -/
def statusWord (s : Shaped.State S) : S.Rsp :=
  zextRsp (bitOf s.ill ++ bitOf s.latching ++ bitOf s.busy ++ bitOf s.chB.pend ++ bitOf s.chA.pend)

/-- The output irq: `PEND[0] OR PEND[1]`, no enable, no mask (R22, R86). -/
def irq (s : Shaped.State S) : Bool := s.chA.pend || s.chB.pend

/-- Is this word a RENDER with an in-range digit? -/
def isInRangeRender (w : S.Word) : Bool :=
  match decode (commandWord w) with
  | .ok (.render d) => (digitInRange (S := S) d).isSome
  | _ => false

/-- The output cmd_ready: 0 during reset (R93) and for a presented in-range RENDER while BUSY = 1; in every other cycle 1,
also where the host presents nothing, `cmd_valid` being 0 (R24). -/
def cmdReady (rstN cmdValid : Bool) (s : Shaped.State S) : Bool :=
  rstN && !(cmdValid && s.busy && (s.cmds.head?.map isInRangeRender).getD false)

end Sys2Proof.Machine
end

