-- ==== Sys2Proof/Machine/Control.lean ====
section
/-! DEFINITION. The control commands NOP and RDSTAT (spec/40_control.md). -/

namespace Sys2Proof.Machine

variable {S : Config.Shape}

/-- NOP: `Respond(0x00000000)` (R49). -/
def execNop (s : Shaped.State S) : Host.Outcome (Shaped.State S) Fault Refusal := .next (respond 0x00000000 s)

/-- RDSTAT: the status word, read at the start of the step, nothing cleared (R50). -/
def execRdstat (s : Shaped.State S) : Host.Outcome (Shaped.State S) Fault Refusal := .next (respond (statusWord s) s)

end Sys2Proof.Machine
end

