-- ==== Sys2Proof/Machine/Debouncer.lean ====
section
/-! DEFINITION. The debouncer (spec/41_debouncer.md): the edge detector, the edge step, ACK and RDTS. -/

namespace Sys2Proof.Shaped

variable {S : Config.Shape}

/-- `btn_n[b]` as sampled in a cycle (R23). -/
def CycleIn.btnN (io : CycleIn S) : Button → Bool
  | .A => io.btnNA
  | .B => io.btnNB

/-- The synchroniser's output, `SYNC[b][SYNC_STAGES-1]` (R15, R52). -/
def Channel.syncOut (c : Channel S) : Bool := c.sync.getLsbD (S.syncStages - 1)

/-- `fall(b)`: the previous level is 1 and the synchroniser's output is 0 (R15, R52). A rising edge is detected by
nothing. -/
def Channel.falling (c : Channel S) : Bool := c.lvl && !c.syncOut

/-- The sampling of R52: the pin is shifted into the synchroniser, and LVL takes the output as it was. -/
def Channel.sample (c : Channel S) (pin : Bool) : Channel S :=
  { c with sync := c.sync.shiftConcat pin, lvl := c.syncOut }

/-- `t -_32 TS[b]`: the subtraction modulo 2^TS_W of R54 (R9, D5). -/
def Channel.delta (c : Channel S) (t : S.Stamp) : S.Stamp := t - c.ts

/-- The writes of an accepted edge on a channel: PEND[b] is set and TS[b] takes the stamp, in one step (R54). -/
def Channel.latchEdge (c : Channel S) (t : S.Stamp) : Channel S := { c with pend := true, ts := t }

end Sys2Proof.Shaped

namespace Sys2Proof.Machine

variable {S : Config.Shape}

/-- The strict debounce test of R54 on channel `b`: `delta > DEBOUNCE_MS`. A channel the shape does not have accepts
nothing (log 23). -/
def accepts (s : Shaped.State S) (b : Button) (t : S.Stamp) : Bool :=
  hasChannel S b && decide (s.config.debounceMs < ((s.chan b).delta t).toNat)

/-- The edge step `Edge(b, t)` of R54, its test made on the state `s0` at the start of the step (R26) and its writes on
`s`: an accepted edge sets PEND[b] and writes TS[b] in one step, a discarded one changes nothing. -/
def edgeFrom (s0 : Shaped.State S) (b : Button) (t : S.Stamp) (s : Shaped.State S) : Shaped.State S :=
  if accepts s0 b t then s.setChan b ((s.chan b).latchEdge t) else s

/-- The edge step as a step of its own (R53, R54). -/
def edge (b : Button) (t : S.Stamp) (s : Shaped.State S) : Shaped.State S := edgeFrom s b t s

/-- The edge step of channel `b` in one clock cycle: taken iff `fall(b)` holds at the start of the cycle (R53). -/
def edgeInCycle (s0 : Shaped.State S) (b : Button) (t : S.Stamp) (s : Shaped.State S) : Shaped.State S :=
  if (s0.chan b).falling then edgeFrom s0 b t s else s

/-- The sampling of channel `b`'s line in one clock cycle (R52), if the shape has the channel (log 23). -/
def sampleLine (b : Button) (pin : Bool) (s : Shaped.State S) : Shaped.State S :=
  s.setChan b (if hasChannel S b then (s.chan b).sample pin else s.chan b)

/-- ACK c: responds with PEND[c] as it was, and clears it, in one step (R56). -/
def execAck (c : Button) (s : Shaped.State S) : Host.Outcome (Shaped.State S) Fault Refusal :=
  .next (respond (zextRsp (bitOf (s.chan c).pend)) (setPend c false s))

/-- RDTS c: responds with TS[c], TS_W and RSP_W being the same width in the reference shape (R57). -/
def execRdts (c : Button) (s : Shaped.State S) : Host.Outcome (Shaped.State S) Fault Refusal := .next (respond (zextRsp (s.chan c).ts) s)

end Sys2Proof.Machine
end

