-- ==== Sys2Proof/Machine/GlyphRom.lean ====
section
/-! DEFINITION. The glyph ROM and the pixel multiplexer (spec/42_glyph_rom.md), for the ROM contents of any instance. Those
of the reference instance are `referenceRom` (Machine/Reference.lean). -/

namespace Sys2Proof.Machine

variable {S : Config.Shape}

/-- `RomRead(d)`: `G[d]`, bit `i` being cell `i`, a pure lookup (R61, R62). -/
def romRead (P : Config.Params S) (d : Fin S.nGlyph) : BitVec S.numPixels := P.glyphRom.get d

/-- What any instance's ROM must satisfy (R61 (b); (a) and (c) hold by type): distinct digits have distinct masks. -/
def romDistinct (P : Config.Params S) : Prop := ∀ d e : Fin S.nGlyph, romRead P d = romRead P e → d = e

/-- `pct(d, i)`, the percentages (R, G, B) of cell `i` in the glyph of `d`: LIT_COLOUR if lit, else off (R63). -/
def cellColour (P : Config.Params S) (d : Fin S.nGlyph) (i : Fin S.numPixels) : S.Pct × S.Pct × S.Pct :=
  if (romRead P d).getLsbD i then P.litColour else (0, 0, 0)

/-- `W(d, i)`, word `i` of the frame of `d` (R64). Wire order is the ROM's bit order (R65). -/
def frameWord (P : Config.Params S) (d : Fin S.nGlyph) (i : Fin S.numPixels) : S.Packed :=
  let c := cellColour P d i
  packColour S P.roundHalf c.1 c.2.1 c.2.2

end Sys2Proof.Machine
end

