-- ==== Sys2Proof/Machine/SerialEngine.lean ====
section
/-! DEFINITION. The serial protocol engine and RENDER (spec/44_serial_engine.md). -/

namespace Sys2Proof.Machine

variable {S : Config.Shape}

/-- The writes of an accepted in-range RENDER: `TXD <- d[3:0]`, `WIDX <- 0`, `BIDX <- 23`, `TXST <- SHIFT` (R73). -/
def startFrame (d : Fin S.nGlyph) (s : Shaped.State S) : Shaped.State S :=
  { s with txd := d, widx := ⟨0, S.numPixels_pos⟩, bidx := topBit S, txst := .shift }

/-- RENDER d: out of range a no-op that responds 0 and is never held (R72); in range held while busy, else the frame
starts and the response is 1 (R73). -/
def execRender (d : BitVec 8) (s : Shaped.State S) : Host.Outcome (Shaped.State S) Fault Refusal :=
  match digitInRange d with
  | none => .next (respond 0x00000000 s)
  | some digit => if s.busy then hold s else .next (respond 0x00000001 (startFrame digit s))

/-- The bit a SHIFT step sends, `W(TXD, WIDX)[BIDX]` (R74). -/
def currentBit (s : Shaped.State S) : Bool := (frameWord s.config s.txd s.widx).getLsbD s.bidx

/-- The advance after a bit (R75): the next bit of the word, the next word from bit 23, or the latch gap. -/
def advance (s : Shaped.State S) : Shaped.State S :=
  if 0 < s.bidx.val then
    { s with bidx := ⟨s.bidx.val - 1, Nat.lt_of_le_of_lt (Nat.sub_le _ _) s.bidx.isLt⟩ }
  else if h : s.widx.val < S.numPixels - 1 then
    { s with bidx := topBit S, widx := ⟨s.widx.val + 1, Nat.add_lt_of_lt_sub h⟩ }
  else
    { s with txst := .latch, lcnt := gapCycles s.config }

/-- The end of a bit period, which a SHIFT step stands for (R74): the phase counter is back at 0 and the line is in the
low tail of the bit (R79). DEDUCED, log 8. -/
def endBitPeriod (s : Shaped.State S) : Shaped.State S := { s with pcnt := 0, dout := false }

/-- `SPE_shift`: sends the current bit, then advances (R74, R75). -/
def speShift (s : Shaped.State S) : Shaped.State S := endBitPeriod (advance (emit (.bit (currentBit s)) s))

/-- `SPE_latch`: the gap is complete (R76). It fires when LCNT has reached 0, the line being low. DEDUCED, log 8. -/
def speLatch (s : Shaped.State S) : Shaped.State S := emit .latch { s with txst := .idle, lcnt := 0, dout := false }

/-- The SPE step: enabled iff TXST ≠ IDLE; in IDLE nothing happens (R74, R76, R77). -/
def speStep (s : Shaped.State S) : Shaped.State S :=
  match s.txst with
  | .idle => s
  | .shift => speShift s
  | .latch => speLatch s

/-- The SPE in one clock cycle, from TXST at the start of the cycle (R26): a SHIFT step at the end of a bit period
counted by PCNT (R79), a LATCH step when LCNT has reached 0 (R76), else the counter moves. DESIGN CHOICE on the exact
cycle of each: logs 9, 10. -/
def speInCycle (s0 : Shaped.State S) (s : Shaped.State S) : Shaped.State S :=
  match s0.txst with
  | .idle => s
  | .shift => if s.pcnt + 1 < bitCycles s.config then { s with pcnt := s.pcnt + 1 } else speShift s
  | .latch => if s.lcnt = 0 then speLatch s else { s with lcnt := s.lcnt - 1 }

/-- The level of `dout` for a state: in SHIFT high for the first T1H or T0H of the bit period, then low (R79); low in
LATCH and IDLE (R77, R80). -/
def lineLevel (s : Shaped.State S) : Bool :=
  match s.txst with
  | .idle => false
  | .shift => decide (s.pcnt < highCycles s.config (currentBit s))
  | .latch => false

/-- The register `dout` at the end of a clock cycle. DESIGN CHOICE, log 10. -/
def driveLine (s : Shaped.State S) : Shaped.State S := { s with dout := lineLevel s }

/-- The bits of one word, most significant first: bit 23 down to bit 0 (R31, R78). -/
def wordBits (w : S.Packed) : List Sym := (List.range S.wordW).reverse.map fun j => Sym.bit (w.getLsbD j)

/-- The 600 bits of the frame of `d`: its words in wire order (R78). -/
def frameBits (P : Config.Params S) (d : Fin S.nGlyph) : List Sym :=
  (List.finRange S.numPixels).flatMap fun i => wordBits (frameWord P d i)

/-- `frame(d)`: the bits of the frame, then the latch (R78). -/
def frame (P : Config.Params S) (d : Fin S.nGlyph) : List Sym := frameBits P d ++ [.latch]

end Sys2Proof.Machine
end

