-- ==== Sys2Proof/Machine/Dispatch.lean ====
section
/-! DEFINITION. The dispatch of a decoded command to its meaning (spec/40_control.md R48). -/

namespace Sys2Proof.Machine

def exec (i : Instr) (s : State) : Host.Outcome State Fault Refusal :=
  match i with
  | .nop => Sys2Proof.Machine.execNop s
  | .rdstat => Sys2Proof.Machine.execRdstat s
  | .ack c => Sys2Proof.Machine.execAck c s
  | .rdts c => Sys2Proof.Machine.execRdts c s
  | .encode pr pg pb => Sys2Proof.Machine.execEncode pr pg pb s
  | .render d => Sys2Proof.Machine.execRender d s

end Sys2Proof.Machine
end

