-- ==== Sys2Proof/Machine/Shapes.lean ====
section
/-! DEFINITION. The dispatch of a decoded command for an instance of any shape: the arms of `exec`, which is it in the
reference shape (Laws/Ops.lean, execOf_eq_exec). -/

namespace Sys2Proof.Machine

variable {S : Config.Shape}

/-- The meaning of a command (R48), in an instance of any shape. -/
def execOf (i : Instr) (s : Shaped.State S) : Host.Outcome (Shaped.State S) Fault Refusal :=
  match i with
  | .nop => execNop s
  | .rdstat => execRdstat s
  | .ack c => execAck c s
  | .rdts c => execRdts c s
  | .encode pr pg pb => execEncode pr pg pb s
  | .render d => execRender d s

end Sys2Proof.Machine
end

