-- ==== Sys2Proof/Machine/Agents.lean ====
section
/-! DEFINITION. The steps of the agents (spec/00_scope.md R7), one whole clock cycle (spec/20_memory.md R26) and the choice
of who moves. -/

namespace Sys2Proof.Machine

variable {S : Config.Shape}

/-- The HOST step (R48): the presented word is decoded; an illegal one raises IllegalCommand, before anything else is
looked at (R87). With no word presented nothing happens. -/
def hostStep (s : Shaped.State S) : Host.Outcome (Shaped.State S) Fault Refusal :=
  match s.cmds with
  | [] => .next s
  | w :: _ =>
    match decode (commandWord w) with
    | .ok i => execOf i s
    | .error _ => .next (raiseIllegalCommand s)

/-- The CLOCK step: the environment sets NOW (R7, R19). Any value is taken (R100), log 18. -/
def clockStep (t : S.Stamp) (s : Shaped.State S) : Shaped.State S := { s with now := t }

/-- The start of a clock cycle: NOW is the cycle's `now_ms` (R53), and a response offered in the cycle before is gone
(R24), log 6. -/
def beginCycle (io : Shaped.CycleIn S) (s : Shaped.State S) : Shaped.State S := { s with now := io.nowMs, rspValid := false }

/-- The debouncer in one clock cycle (R26): the edge step of channel A, then that of B, each tested on the state `s0` at
the start of the cycle, and the sampling of both lines (R52). -/
def debounceInCycle (io : Shaped.CycleIn S) (s0 : Shaped.State S) (s : Shaped.State S) : Shaped.State S :=
  sampleLine .B (io.btnN .B) <| sampleLine .A (io.btnN .A) <|
    edgeInCycle s0 .B io.nowMs <| edgeInCycle s0 .A io.nowMs s

/-- What one clock cycle does after the HOST step, in R26's order: the channels A and B, then the SPE, each deciding on the
state `s0` at the start of the cycle; then the register `dout` takes its level. -/
def clockBlock (io : Shaped.CycleIn S) (s0 : Shaped.State S) (s : Shaped.State S) : Shaped.State S :=
  driveLine (speInCycle s0 (debounceInCycle io s0 s))

/-- One rising edge of `clk` (R26): reset if `rst_n = 0`, when no command is accepted (R93); else the HOST step, if
`cmd_valid`, then the rest of the block. DESIGN CHOICE, log 24: a reset edge takes no SPE step, so a bit whose period ends
at that very edge is not among the bits sent of R95. -/
def cycle (io : Shaped.CycleIn S) (s : Shaped.State S) : Host.Outcome (Shaped.State S) Fault Refusal :=
  let s0 := beginCycle io s
  if io.rstN then
    andThen (if io.cmdValid then hostStep s0 else .next s0) (clockBlock io s0)
  else
    .next (resetBlock s0)

/-- The step of the agent whose turn it is (R7). -/
def takeTurn (t : Shaped.Turn S) (s : Shaped.State S) : Host.Outcome (Shaped.State S) Fault Refusal :=
  match t with
  | .host => hostStep s
  | .btn b => .next (edge b s.now s)
  | .clock t => .next (clockStep t s)
  | .spe => .next (speStep s)
  | .cycle io => cycle io s

/-- Who moves when no turn is fixed: the HOST if it has a word that would be accepted, else the SPE. So the SPE runs only
while a command is held or none is presented. DESIGN CHOICE, log 2. -/
def defaultTurn (s : Shaped.State S) : Shaped.Turn S := if s.cmds ≠ [] ∧ cmdReady true true s then .host else .spe

/-- The turns still to come, and nothing else, replaced. -/
def setTurns (ts : List (Shaped.Turn S)) (s : Shaped.State S) : Shaped.State S := { s with turns := ts }

/-- Takes the next turn: the first one of the list, or the default where none is fixed. -/
def nextTurn (s : Shaped.State S) : Host.Outcome (Shaped.State S) Fault Refusal :=
  match s.turns with
  | [] => takeTurn (defaultTurn s) s
  | t :: rest => takeTurn t (setTurns rest s)

end Sys2Proof.Machine
end

