-- ==== Sys2Proof/Machine/Step.lean ====
section
/-! DEFINITION. One step of the machine, and the placing of a command word where the next step takes it from. -/

namespace Sys2Proof.Machine

/-- One step: the agent whose turn it is moves (spec/00_scope.md R7). -/
def step (s : State) : Host.Outcome State Fault Refusal := nextTurn s

/-- `s` with the word as the one the HOST presents next and the next turn the HOST's, so that the next step runs it
(log 3: a program is loaded from outside, as the list of words the host presents). -/
def State.withFetchWord (s : State) (nbits w : Nat) : State :=
  { s with cmds := tableWord nbits w :: s.cmds, turns := .host :: s.turns }

end Sys2Proof.Machine
end

