-- ==== Sys2Proof/Machine/Assembler.lean ====
section
/-! DEFINITION. The assembler (spec/30_encoding.md R45) and the pseudo-instructions (R46). It is host-side: no step calls it. -/

namespace Sys2Proof.Machine

/-- The instruction of a statement, `none` where an operand is outside its range: an assembler rejects it and never
truncates it silently, except that RENDER takes `d mod 256` (R45, R42). -/
def assemble (src : Source) : Option Instr :=
  if src.wellFormed then
    match src with
    | .nop => some .nop
    | .rdstat => some .rdstat
    | .ack c => some (.ack (Button.ofBit (BitVec.ofInt 1 c)))
    | .rdts c => some (.rdts (Button.ofBit (BitVec.ofInt 1 c)))
    | .encode pr pg pb => some (.encode (BitVec.ofInt 7 pr) (BitVec.ofInt 7 pg) (BitVec.ofInt 7 pb))
    | .render d => some (.render (BitVec.ofInt 8 d))
  else none

/-- Blanks at both ends taken off. -/
def trim (cs : List Char) : List Char :=
  let drop := List.dropWhile fun c => c == ' ' || c == '\t'
  (drop (drop cs).reverse).reverse

/-- The value of a digit character: 0 to 9, a to f, A to F. -/
def digitValue (c : Char) : Option Nat :=
  if '0' ≤ c ∧ c ≤ '9' then some (c.toNat - 48)
  else if 'a' ≤ c ∧ c ≤ 'f' then some (c.toNat - 87)
  else if 'A' ≤ c ∧ c ≤ 'F' then some (c.toNat - 55)
  else none

/-- The number written by digits in a base, after those of value `acc`. -/
def digitsFrom (base acc : Nat) : List Char → Option Nat
  | [] => some acc
  | c :: cs =>
    match digitValue c with
    | none => none
    | some v => if v < base then digitsFrom base (base * acc + v) cs else none

/-- An unsigned number: decimal unless prefixed `0x` (R45). -/
def parseNat : List Char → Option Nat
  | [] => none
  | '0' :: 'x' :: c :: cs => digitsFrom 16 0 (c :: cs)
  | c :: cs => digitsFrom 10 0 (c :: cs)

/-- A number, negative with a leading `-` (R42 writes `RENDER -1`). -/
def parseInt : List Char → Option Int
  | '-' :: cs => (parseNat cs).map fun n => -(n : Int)
  | cs => (parseNat cs).map fun n => (n : Int)

/-- A channel by its letter (R45). -/
def parseLetter : List Char → Option Int
  | ['A'] => some 0
  | ['B'] => some 1
  | _ => none

/-- The statement of one line (R45): a comment from `;` on, a mnemonic in upper case, operands separated by commas.
`none` where it is no statement. DESIGN CHOICE, log 19: `RDTS` takes the letters A and B only, as R45's table shows. -/
def parseLine (line : List Char) : Option Source :=
  let text := trim (line.takeWhile (· != ';'))
  let word := text.takeWhile (fun c => c != ' ' && c != '\t')
  let operands := (((text.drop word.length).splitOn ',').map trim).filter (· ≠ [])
  match String.ofList word, operands with
  | "NOP", [] => some .nop
  | "RDSTAT", [] => some .rdstat
  | "ACK", [c] => ((parseLetter c).or (parseInt c)).map .ack
  | "RDTS", [c] => (parseLetter c).map .rdts
  | "ENCODE", [r, g, b] =>
    match parseInt r, parseInt g, parseInt b with
    | some pr, some pg, some pb => some (.encode pr pg pb)
    | _, _, _ => none
  | "RENDER", [d] => (parseInt d).map .render
  | _, _ => none

/-- The command word of one line, `none` where the assembler rejects it (R45). -/
def assembleLine (line : String) : Option Word := ((parseLine line.toList).bind assemble).map encode

/-- The commands one pass of a pseudo-instruction issues (R46). -/
def Pseudo.body : Pseudo → List Instr
  | .waitIdle => [.rdstat]
  | .waitPress => [.rdstat]
  | .ackAll => [.ack .A, .ack .B]

/-- Does the host repeat the body, after the last response `rsp`? WAITIDLE while `rsp[2] = 1`, WAITPRESS while
`rsp[1:0] = 0b00`, ACKALL never (R46). -/
def Pseudo.repeats (p : Pseudo) (rsp : Word) : Bool :=
  match p with
  | .waitIdle => rsp.getLsbD 2
  | .waitPress => rsp.extractLsb' 0 2 == 0
  | .ackAll => false

end Sys2Proof.Machine
end

