-- ==== Sys2Proof/Safety.lean ====
section
/-! DEFINITION. What the claims about runs speak of: whose turn it is, progress of the SPE, the invariant of the machine,
the architectural view of a state, the stamps a channel accepts. -/

namespace Sys2Proof.Machine

variable {S : Config.Shape}

/-- Whose turn it is in a state. -/
def currentTurn (s : Shaped.State S) : Shaped.Turn S := s.turns.head?.getD (defaultTurn s)

end Sys2Proof.Machine

namespace Sys2Proof.Shaped

variable {S : Config.Shape}

/-- Is this turn a clock edge with `rst_n = 0` (R93)? -/
def Turn.isReset : Turn S → Bool
  | .cycle io => !io.rstN
  | _ => false

end Sys2Proof.Shaped

namespace Sys2Proof.Machine

variable {S : Config.Shape}

/-- The bits of the frame in flight that have been sent, from WIDX and BIDX (R74, R75). -/
def sentBits (s : Shaped.State S) : Nat := S.wordW * s.widx + (S.wordW - 1 - s.bidx)

/-- The SPE steps left until IDLE: the bits still to send and the latch step (R81). -/
def speStepsLeft (s : Shaped.State S) : Nat :=
  match s.txst with
  | .idle => 0
  | .shift => S.wordW * S.numPixels - sentBits s + 1
  | .latch => 1

/-- What LT holds since the last reset: nothing before the gap after reset is over (R94); then `Latch`, whole frames, and
of a frame in flight exactly the bits sent (R78). -/
def LineFramed (s : Shaped.State S) : Prop :=
  match s.txst with
  | .idle => ∃ ds : List (Fin S.nGlyph), s.lt = .latch :: ds.flatMap (frame s.config)
  | .shift => ∃ ds : List (Fin S.nGlyph),
    s.lt = .latch :: ds.flatMap (frame s.config) ++ (frameBits s.config s.txd).take (sentBits s)
  | .latch => s.lt = [] ∨ ∃ ds : List (Fin S.nGlyph),
    s.lt = .latch :: ds.flatMap (frame s.config) ++ frameBits s.config s.txd

/-- The invariant of the machine. -/
structure MachineInvariant (s : Shaped.State S) : Prop where
  /-- The line is low outside SHIFT (R76, R77, R80). -/
  lineLow : s.txst ≠ .shift → s.dout = false
  /-- A bit period starts with its phase counter at 0 (R79, log 9). -/
  phaseClear : s.txst ≠ .shift → s.pcnt = 0
  /-- The phase counter stays inside a bit period. -/
  phaseBound : s.pcnt = 0 ∨ s.pcnt < bitCycles s.config
  /-- The gap counter has run down outside LATCH, and never exceeds the full gap (R75, R76). -/
  gapClear : s.txst ≠ .latch → s.lcnt = 0
  gapBound : s.lcnt ≤ gapCycles s.config
  /-- A response on offer is the last one of the host's sequence (R24). -/
  response : s.rspValid = true → s.responses.getLast? = some s.rspData
  /-- The line trace is made of whole frames (R78, R94). -/
  framed : LineFramed s

/-- What the transaction level of R6 sees of a state: all but the synchronisers, the hidden counters, the level of `dout`,
`rsp_valid` and the turns. -/
structure View (S : Config.Shape) where
  config : Config.Params S
  pendA : Bool
  pendB : Bool
  tsA : S.Stamp
  tsB : S.Stamp
  ill : Bool
  txst : TxState
  txd : Fin S.nGlyph
  widx : Fin S.numPixels
  bidx : Fin S.wordW
  lt : List Sym
  rspData : S.Rsp
  responses : List S.Rsp
  now : S.Stamp
  cmds : List S.Word
  deriving DecidableEq, Repr

/-- The view of a state. -/
def view (s : Shaped.State S) : View S :=
  { config := s.config, pendA := s.chA.pend, pendB := s.chB.pend, tsA := s.chA.ts, tsB := s.chB.ts, ill := s.ill,
    txst := s.txst, txd := s.txd, widx := s.widx, bidx := s.bidx, lt := s.lt, rspData := s.rspData, responses := s.responses,
    now := s.now, cmds := s.cmds }

/-- The steps of the named turns, one after the other. -/
def runTurns : List (Shaped.Turn S) → Shaped.State S → Host.Outcome (Shaped.State S) Fault Refusal
  | [], s => .next s
  | t :: ts, s =>
    match takeTurn t s with
    | .next s' => runTurns ts s'
    | .fault r => .fault r
    | .refused r => .refused r

/-- Is an SPE step taken in a clock cycle that starts in this state: the end of a bit period, or of the gap (R74, R76, R79;
the exact cycle is the model's choice, log 9)? -/
def speFires (s : Shaped.State S) : Bool :=
  match s.txst with
  | .idle => false
  | .shift => decide (bitCycles s.config ≤ s.pcnt + 1)
  | .latch => decide (s.lcnt = 0)

/-- The agents that step in a clock cycle without reset, in R26's order: the HOST if it presents a command, each channel
whose edge detector fires, the SPE at the end of a bit period or of the gap. -/
def cycleTurns (io : Shaped.CycleIn S) (s : Shaped.State S) : List (Shaped.Turn S) :=
  (if io.cmdValid then [.host] else []) ++ (if (s.chan .A).falling then [.btn .A] else []) ++
    (if (s.chan .B).falling then [.btn .B] else []) ++ (if speFires s then [.spe] else [])

/-- The stamps of the accepted edges among edges on channel `b` with these stamps, in this order (R58). -/
def acceptedStamps (b : Button) : Shaped.State S → List S.Stamp → List S.Stamp
  | _, [] => []
  | s, t :: ts =>
    if accepts s b t then t :: acceptedStamps b (edge b t s) ts else acceptedStamps b (edge b t s) ts

/-- The state after edges on channel `b` with these stamps. -/
def edgesRun (b : Button) (s : Shaped.State S) (ts : List S.Stamp) : Shaped.State S := ts.foldl (fun s t => edge b t s) s

end Sys2Proof.Machine
end

