-- ==== Sys2Proof/Certificates/Slice0/Obligations.lean ====
section
/-! DEFINITION. The statements for the provers. Each names the rules of spec/ it rests on; a clause that rests on a choice
of the model names its log entry (notes/assumptions/). Where a statement says `{ s with … }` for the whole next state, it
also says its frame: every other register, flag, trace, and the environment's data, is as before. A statement over every
state is over every instance of the reference shape too, whose parameters (R5) are the state's `config`; where it needs a
value of the reference instance it says so, and where it is about instances of every shape it says `∀ S`. -/

open Sys2Proof Sys2Proof.Machine

-- Encoding and decoding (file 30).

/-- R38, R39, R45: decoding the word of any well-formed instruction gives that instruction back. -/
def Obligations.DecodeOfEncodeGivesInstruction : Prop :=
  ∀ i : Instr, i.wellFormed = true → decode (encode i) = .ok i

/-- R39: a word that decodes is the word of the instruction it decodes to, so each command has one word only. -/
def Obligations.EncodeOfDecodeGivesWord : Prop :=
  ∀ (w : Word) (i : Instr), decode w = .ok i → encode i = w

/-- R43: the decoder rejects with `reservedOpcode` exactly the words of case (a), and with `reservedBit` exactly those of
case (b), where (b) is the mask and match test of the row of R39 with the word's opcode. -/
def Obligations.DecoderRejectsExactlyIllegalWords : Prop :=
  ∀ w : Word,
    (decode w = .error .reservedOpcode ↔ 6 ≤ (w.extractLsb' 28 4).toNat) ∧
    (decode w = .error .reservedBit ↔ ∃ r ∈ opcodeRows, r.opcode = w.extractLsb' 28 4 ∧ w &&& r.mask ≠ r.pattern)

/-- R39: the masks do not overlap, so every word matches at most one row. -/
def Obligations.EveryWordMatchesAtMostOneRow : Prop :=
  ∀ w : Word, ∀ r ∈ opcodeRows, ∀ r' ∈ opcodeRows, r.accepts w = true → r'.accepts w = true → r = r'

/-- R38, R45 and its examples: words written out from the encoding table decode to the commands they stand for. -/
def Obligations.WrittenOutWordsDecode : Prop :=
  decode 0b00000000000000000000000000000000 = .ok .nop ∧
  decode 0b00010000000000000000000000000000 = .ok .rdstat ∧
  decode 0b00100000000000000000000000000001 = .ok (.ack .B) ∧
  decode 0b00110000000000000000000000000000 = .ok (.rdts .A) ∧
  decode 0b01000000000011001000010100000001 = .ok (.encode 50 10 1) ∧
  decode 0b01010000000000000000000000000011 = .ok (.render 3)

/-- R45, R42: the assembler rejects exactly the statements with an operand outside its range, and encodes the others as
R45's column "encoding" says, a negative digit as `d mod 256`. -/
def Obligations.AssemblerChecksRangesAndEncodes : Prop :=
  (∀ src : Source, assemble src = none ↔ src.wellFormed = false) ∧
  (∀ c : Int, 0 ≤ c → c ≤ 1 →
    (assemble (.ack c)).map encode = some (0x20000000#32 ||| BitVec.ofInt 32 c) ∧
    (assemble (.rdts c)).map encode = some (0x30000000#32 ||| BitVec.ofInt 32 c)) ∧
  (∀ pr pg pb : Int, 0 ≤ pr → pr ≤ 127 → 0 ≤ pg → pg ≤ 127 → 0 ≤ pb → pb ≤ 127 →
    (assemble (.encode pr pg pb)).map encode =
      some (0x40000000#32 ||| BitVec.ofInt 32 pr <<< 14 ||| BitVec.ofInt 32 pg <<< 7 ||| BitVec.ofInt 32 pb)) ∧
  (∀ d : Int, -128 ≤ d → d ≤ 255 →
    (assemble (.render d)).map encode = some (0x50000000#32 ||| BitVec.ofInt 32 (d % 256)))

/-- R46: on the status word, WAITIDLE repeats exactly while the SPE is not IDLE, and WAITPRESS exactly while no press is
pending. -/
def Obligations.PseudoWaitsEndOnStatus : Prop :=
  ∀ s : State,
    (Pseudo.repeats .waitIdle (statusWord s) = true ↔ s.txst ≠ .idle) ∧
    (Pseudo.repeats .waitPress (statusWord s) = true ↔ s.chA.pend = false ∧ s.chB.pend = false)

-- The HOST step and the commands (files 40, 41, 43, 44).

/-- R48: when the HOST's turn comes, or a clock cycle in which it presents, the word it presents is decoded and run by
`exec`; a cycle adds what the rest of the block does in it. Last clause: `withFetchWord` places such a word. -/
def Obligations.StepRunsPresentedCommand : Prop :=
  (∀ (s : State) (w : Word) (rest : List Word) (ts : List Turn) (i : Instr),
    s.cmds = w :: rest → decode w = .ok i →
      (s.turns = .host :: ts → step s = exec i { s with turns := ts }) ∧
      (∀ io : CycleIn, s.turns = .cycle io :: ts → io.rstN = true → io.cmdValid = true →
        step s = andThen (exec i { s with turns := ts, now := io.nowMs, rspValid := false })
          (clockBlock io { s with turns := ts, now := io.nowMs, rspValid := false }))) ∧
  (∀ (s : State) (i : Instr),
    step (s.withFetchWord 32 (encode i).toNat) = exec i { s with cmds := encode i :: s.cmds })

/-- R48: "There is no fault outcome and no refusal outcome": every step of every agent, from every state, goes on; so does
every turn in an instance of any shape (R5), and it leaves the parameters alone (R25). (How the rules read in another shape
is the model's choice, log 23.) -/
def Obligations.EveryStepGoesOn : Prop :=
  (∀ s : State, ∃ t, step s = .next t) ∧
  ∀ (S : Config.Shape) (s : Shaped.State S) (x : Shaped.Turn S), ∃ t, takeTurn x s = .next t ∧ t.config = s.config

/-- R7, R19: a CLOCK turn sets NOW to the time the environment shows, any value (R100), and changes nothing else. -/
def Obligations.ClockTurnSetsNow : Prop :=
  ∀ (s : State) (n : Stamp) (ts : List Turn), s.turns = .clock n :: ts → step s = .next { s with turns := ts, now := n }

/-- R25, R61 (a): the parameters, the ROM contents among them, are no state: no step of any agent changes them, a reset
included; after a reset the machine is the instance it was. -/
def Obligations.ConfigurationNeverChanges : Prop :=
  ∀ s t : State, step s = .next t → t.config = s.config

/-- R83, R43: a HOST step on a word of R43 (a) or (b), whatever the state, sets ILL and responds 0, and nothing else
changes; a HOST step on a legal word leaves ILL as it was; RDSTAT bit 4 reports it. -/
def Obligations.IllegalWordSetsIllAndRespondsZero : Prop :=
  (∀ (s : State) (w : Word) (rest : List Word) (ts : List Turn), s.turns = .host :: ts → s.cmds = w :: rest →
    (6 ≤ (w.extractLsb' 28 4).toNat ∨ ∃ r ∈ opcodeRows, r.opcode = w.extractLsb' 28 4 ∧ w &&& r.mask ≠ r.pattern) →
    step s = .next { s with turns := ts, ill := true, cmds := rest, rspValid := true,
                            rspData := 0x00000000, responses := s.responses ++ [0x00000000] }) ∧
  (∀ (s : State) (w : Word) (rest : List Word) (ts : List Turn), s.turns = .host :: ts → s.cmds = w :: rest →
    (∃ r ∈ opcodeRows, w &&& r.mask = r.pattern) → ∃ t, step s = .next t ∧ t.ill = s.ill) ∧
  (∀ s : State, (statusWord s).getLsbD 4 = s.ill)

/-- R24, R27, R48: a HOST step that presents a word has exactly two outcomes, told by cmd_ready: accepted, the word gone
from the list and exactly one response added and offered; or held, and nothing changes. -/
def Obligations.HostStepAcceptsOrHolds : Prop :=
  ∀ (s : State) (w : Word) (rest : List Word), s.cmds = w :: rest →
    ∃ t, hostStep s = .next t ∧
      ((cmdReady true true s = false ∧ t = s) ∨
       (cmdReady true true s = true ∧ t.cmds = rest ∧ t.rspValid = true ∧ t.responses = s.responses ++ [t.rspData]))

/-- R24, R93: cmd_ready is 0 exactly in reset, and when the host presents (cmd_valid = 1) a RENDER with a digit 0 to 9
while the SPE is not IDLE; where the host presents nothing it is 1. -/
def Obligations.CmdReadyLowOnlyForHeldRender : Prop :=
  ∀ (s : State) (cmdValid : Bool),
    cmdReady false cmdValid s = false ∧
    (cmdReady true cmdValid s = false ↔ cmdValid = true ∧ s.txst ≠ .idle ∧
      ∃ d : BitVec 8, d.toNat ≤ 9 ∧ s.cmds.head? = some (encode (.render d)))

/-- R49: the word 0 is NOP and every other word with op 0 is illegal; NOP, in every state, responds 0 and changes
nothing else. -/
def Obligations.NopRespondsZero : Prop :=
  decode 0x00000000 = .ok .nop ∧
  (∀ w : Word, w.extractLsb' 28 4 = 0 → w ≠ 0 → decode w = .error .reservedBit) ∧
  ∀ s : State,
    exec .nop s = .next { s with cmds := s.cmds.tail, rspValid := true, rspData := 0x00000000,
                                 responses := s.responses ++ [0x00000000] }

/-- R50, R21: RDSTAT, in every state, responds with PA, PB, BUSY, LATCHING and ILL in bits 0 to 4 and zeros above, and
changes nothing else. -/
def Obligations.RdstatRespondsStatusWord : Prop :=
  ∀ s : State, ∃ v : Rsp,
    exec .rdstat s = .next { s with cmds := s.cmds.tail, rspValid := true, rspData := v, responses := s.responses ++ [v] } ∧
    v.toNat = (if s.chA.pend then 1 else 0) + (if s.chB.pend then 2 else 0) + (if s.txst ≠ .idle then 4 else 0)
      + (if s.txst = .latch then 8 else 0) + (if s.ill then 16 else 0)

/-- R56: ACK, in every state, responds with the flag of its channel as it was and clears it; the channel's time stamp,
the other channel and everything else stay. -/
def Obligations.AckReadsAndClearsItsChannel : Prop :=
  ∀ s : State,
    (exec (.ack .A) s = .next { s with chA := { s.chA with pend := false }, cmds := s.cmds.tail, rspValid := true,
                                       rspData := if s.chA.pend then 1 else 0,
                                       responses := s.responses ++ [if s.chA.pend then 1 else 0] }) ∧
    (exec (.ack .B) s = .next { s with chB := { s.chB with pend := false }, cmds := s.cmds.tail, rspValid := true,
                                       rspData := if s.chB.pend then 1 else 0,
                                       responses := s.responses ++ [if s.chB.pend then 1 else 0] })

/-- R57: RDTS, in every state, responds with the time stamp of its channel and changes nothing else. -/
def Obligations.RdtsRespondsTimestamp : Prop :=
  ∀ s : State,
    (exec (.rdts .A) s = .next { s with cmds := s.cmds.tail, rspValid := true, rspData := s.chA.ts,
                                        responses := s.responses ++ [s.chA.ts] }) ∧
    (exec (.rdts .B) s = .next { s with cmds := s.cmds.tail, rspValid := true, rspData := s.chB.ts,
                                        responses := s.responses ++ [s.chB.ts] })

/-- R66 to R70: ENCODE, in every state, responds with the converted percentages, green in bits 23:16, red in 15:8, blue
in 7:0, and changes nothing else. A percentage converts to 0 at 0, else to `floor((255p + 50) / 100)` clamped to 255, one
less at 30 and 70 in an instance that rounds halves to even (U2). -/
def Obligations.EncodeRespondsPackedColour : Prop :=
  ∀ (pr pg pb : Pct) (s : State), ∃ (v : Rsp) (dev : Pct → Nat),
    exec (.encode pr pg pb) s =
      .next { s with cmds := s.cmds.tail, rspValid := true, rspData := v, responses := s.responses ++ [v] } ∧
    v.toNat = 65536 * dev pg + 256 * dev pr + dev pb ∧
    ∀ p : Pct, dev p = if p.toNat = 0 then 0
      else if s.config.roundHalf = .even ∧ (p.toNat = 30 ∨ p.toNat = 70) then (255 * p.toNat + 50) / 100 - 1
      else min ((255 * p.toNat + 50) / 100) 255

/-- R72: the word `0x50000000 OR d` is RENDER d; with `d` outside 0 to 9, in every state (busy or not), it responds 0 and
changes nothing else. -/
def Obligations.RenderOutOfRangeIsNoOp : Prop :=
  (∀ d : BitVec 8, decode (0x50000000#32 ||| d.setWidth 32) = .ok (.render d)) ∧
  ∀ (s : State) (d : BitVec 8), 10 ≤ d.toNat →
    exec (.render d) s = .next { s with cmds := s.cmds.tail, rspValid := true, rspData := 0x00000000,
                                        responses := s.responses ++ [0x00000000] }

/-- R73: RENDER with a digit 0 to 9 while the SPE is IDLE latches the digit, starts at bit 23 of word 0, responds 1, and
changes nothing else. -/
def Obligations.RenderInIdleStartsFrame : Prop :=
  ∀ (s : State) (d : BitVec 8) (h : d.toNat < 10), s.txst = .idle →
    exec (.render d) s = .next { s with txd := ⟨d.toNat, h⟩, widx := ⟨0, by decide⟩, bidx := ⟨23, by decide⟩,
                                        txst := .shift, cmds := s.cmds.tail, rspValid := true, rspData := 0x00000001,
                                        responses := s.responses ++ [0x00000001] }

/-- R73, R27: RENDER with a digit 0 to 9 while the SPE is not IDLE is held: no state changes, and the words behind it are
held too (in a HOST turn only the turn itself is used up). -/
def Obligations.RenderWhileBusyIsHeld : Prop :=
  (∀ (s : State) (d : BitVec 8), d.toNat < 10 → s.txst ≠ .idle → exec (.render d) s = .next s) ∧
  (∀ (s : State) (d : BitVec 8) (rest : List Word) (ts : List Turn), d.toNat < 10 → s.txst ≠ .idle →
    s.turns = .host :: ts → s.cmds = encode (.render d) :: rest → step s = .next { s with turns := ts })

/-- R51, R73, with the model's default turn (log 2, a choice of the model): where no turn is fixed, an in-range RENDER at
the front of the host's list is accepted within 602 steps, and nothing else is answered before it. -/
def Obligations.HeldRenderIsAcceptedWithin602Steps : Prop :=
  ∀ (s : State) (d : BitVec 8) (rest : List Word), d.toNat < 10 → s.turns = [] → s.cmds = encode (.render d) :: rest →
    ∃ k t, k ≤ 602 ∧ core.run k s = .next t ∧ t.responses = s.responses ++ [0x00000001] ∧ t.cmds = rest ∧
      t.txst = .shift ∧ t.txd.val = d.toNat

-- The debouncer (file 41).

/-- R54, R53: the edge step of a channel at time NOW: with the difference from TS[b] modulo 2^32 more than DEBOUNCE_MS, 200
in the reference instance, it sets PEND[b] and writes TS[b]; else it changes nothing. The other channel and everything
else stay. -/
def Obligations.EdgeStepFollowsDebounceTest : Prop :=
  referenceConfig.debounceMs = 200 ∧
  ∀ (s : State) (ts : List Turn),
    (s.turns = .btn .A :: ts →
      step s = .next (if s.config.debounceMs < (s.now.toNat + 2 ^ 32 - s.chA.ts.toNat) % 2 ^ 32
        then { s with turns := ts, chA := { s.chA with pend := true, ts := s.now } } else { s with turns := ts })) ∧
    (s.turns = .btn .B :: ts →
      step s = .next (if s.config.debounceMs < (s.now.toNat + 2 ^ 32 - s.chB.ts.toNat) % 2 ^ 32
        then { s with turns := ts, chB := { s.chB with pend := true, ts := s.now } } else { s with turns := ts }))

/-- R55: an accepted edge while PEND[b] = 1 leaves it 1 and writes TS[b], and changes nothing else: no press is queued
or counted. -/
def Obligations.AcceptedEdgeWhilePendingCoalesces : Prop :=
  ∀ (s : State) (b : Button) (t : Stamp), (s.chan b).pend = true → s.config.debounceMs < (t - (s.chan b).ts).toNat →
    edge b t s = s.setChan b { s.chan b with ts := t }

/-- R58: of edges on one channel whose stamps do not decrease (and so do not wrap), any two accepted ones are more than
DEBOUNCE_MS apart, from every state of the channel: at least 201 ms in the reference instance. -/
def Obligations.AcceptedEdgesAreAtLeast201Apart : Prop :=
  referenceConfig.debounceMs + 1 = 201 ∧
  ∀ (s : State) (b : Button) (ts : List Stamp), ts.Pairwise (fun t u => t.toNat ≤ u.toNat) →
    (acceptedStamps b s ts).Pairwise (fun t u => t.toNat + (s.config.debounceMs + 1) ≤ u.toNat)

/-- R58: discarded edges never matter: the accepted edges alone lead to the same state. -/
def Obligations.DiscardedEdgesLeaveNoTrace : Prop :=
  ∀ (s : State) (b : Button) (ts : List Stamp), edgesRun b s (acceptedStamps b s ts) = edgesRun b s ts

/-- R13, R60: in any step, PEND[b] goes from 0 to 1 only by an accepted edge of channel `b`, which also writes TS[b]. -/
def Obligations.PendRisesOnlyByAcceptedEdge : Prop :=
  ∀ (s t : State) (b : Button), step s = .next t → (s.chan b).pend = false → (t.chan b).pend = true →
    (currentTurn s = .btn b ∧ s.config.debounceMs < (s.now - (s.chan b).ts).toNat ∧ (t.chan b).ts = s.now) ∨
    (∃ io, currentTurn s = .cycle io ∧ io.rstN = true ∧ (s.chan b).falling = true ∧
      s.config.debounceMs < (io.nowMs - (s.chan b).ts).toNat ∧ (t.chan b).ts = io.nowMs)

/-- R13, R60: in any step, PEND[b] goes from 1 to 0 only by an ACK of channel `b` that answers 1, or by reset. -/
def Obligations.PendFallsOnlyByAckOrReset : Prop :=
  ∀ (s t : State) (b : Button), step s = .next t → (s.chan b).pend = true → (t.chan b).pend = false →
    (currentTurn s).isReset = true ∨ (s.cmds.head? = some (encode (.ack b)) ∧ t.rspData = 1 ∧
      t.responses = s.responses ++ [1])

/-- R14, R28: in any step but a reset, TS[b] changes only by an accepted edge of channel `b`: an edge turn, or a cycle
whose edge detector fires, with a difference above DEBOUNCE_MS. TS[b] takes its stamp, and PEND[b] is 1 after it. -/
def Obligations.TimestampChangesOnlyByAcceptedEdge : Prop :=
  ∀ (s t : State) (b : Button), step s = .next t → (t.chan b).ts ≠ (s.chan b).ts → (currentTurn s).isReset = false →
    (t.chan b).pend = true ∧
    ((currentTurn s = .btn b ∧ s.config.debounceMs < (s.now - (s.chan b).ts).toNat ∧ (t.chan b).ts = s.now) ∨
     (∃ io, currentTurn s = .cycle io ∧ io.rstN = true ∧ (s.chan b).falling = true ∧
       s.config.debounceMs < (io.nowMs - (s.chan b).ts).toNat ∧ (t.chan b).ts = io.nowMs))

/-- R16, R89: only reset clears ILL and only an illegal word sets it, in any step; RDSTAT bit 4 reads it; it is 0 at
reset. -/
def Obligations.IllIsStickyUntilReset : Prop :=
  (∀ s t : State, step s = .next t → (currentTurn s).isReset = false → s.ill = true → t.ill = true) ∧
  (∀ s t : State, step s = .next t → s.ill = false → t.ill = true →
    ∃ w, s.cmds.head? = some w ∧ legalWord w = false ∧ t.responses = s.responses ++ [0]) ∧
  (∀ (s : State) (w : Word) (rest : List Word), s.cmds = w :: rest → legalWord w = false →
    ∃ t, hostStep s = .next t ∧ t.ill = true) ∧
  (∀ s : State, (statusWord s).getLsbD 4 = s.ill) ∧ State.reset.ill = false

/-- R22, R86: irq is PEND[0] OR PEND[1], without enable or mask, so it is high exactly while the status word shows PA or
PB; an accepted edge step leaves it high; it is 0 at reset. -/
def Obligations.IrqFollowsPendingFlags : Prop :=
  (∀ s : State, irq s = true ↔ (s.chan .A).pend = true ∨ (s.chan .B).pend = true) ∧
  (∀ s : State, irq s = true ↔ (statusWord s).extractLsb' 0 2 ≠ 0) ∧
  (∀ (s : State) (b : Button) (t : Stamp), s.config.debounceMs < (t - (s.chan b).ts).toNat → irq (edge b t s) = true) ∧
  irq State.reset = false

/-- R53, R59, R85: edge steps of the two channels do not read each other, and an edge step and an SPE step or a RENDER
(held or not) do not either: their order does not matter. -/
def Obligations.EdgeStepsAreIndependent : Prop :=
  (∀ (s : State) (t u : Stamp), edge .A t (edge .B u s) = edge .B u (edge .A t s)) ∧
  (∀ (s : State) (b : Button) (t : Stamp), speStep (edge b t s) = edge b t (speStep s)) ∧
  (∀ (s : State) (b : Button) (t : Stamp) (d : BitVec 8),
    exec (.render d) (edge b t s) = andThen (exec (.render d) s) (edge b t))

-- The glyph ROM and the codec (files 42, 43).

/-- R66, R67, R68: in the reference instance, 0 converts to 0; every other percentage to `floor((255p + 50) / 100)` clamped
to 255; the clamp acts exactly from 101 on; the halves go up, where the other rounding would differ at 30 and 70 only. -/
def Obligations.ConvRoundsHalvesUpAndClamps : Prop :=
  referenceConfig.roundHalf = .up ∧ conv referenceShape .up 0 = 0 ∧ convRaw referenceShape .up 0 = 0 ∧ convRaw referenceShape .up 127 = 324 ∧
  (∀ p : Pct, p ≠ 0 → (conv referenceShape .up p).toNat = min ((255 * p.toNat + 50) / 100) 255) ∧
  (∀ p : Pct, p.toNat ≤ 100 → (255 * p.toNat + 50) / 100 ≤ 255) ∧
  (∀ p : Pct, 101 ≤ p.toNat → 258 ≤ (255 * p.toNat + 50) / 100 ∧ conv referenceShape .up p = 255) ∧
  [10, 30, 50, 70, 90].map (convRaw referenceShape .up) = [26, 77, 128, 179, 230] ∧
  [10, 30, 50, 70, 90].map (convRaw referenceShape .even) = [26, 76, 128, 178, 230] ∧
  (∀ p : Pct, conv referenceShape .up p ≠ conv referenceShape .even p ↔ p = 30 ∨ p = 70)

/-- R71 (a) to (e), for either rounding of halves: the packed word of (0,0,0) is 0 and of (100,0,0) is 0x00FF00; it is
non-decreasing in each channel; `conv` is 0 only at 0 and strictly increasing on 0 to 100. -/
def Obligations.PackedColourIsMonotonic : Prop :=
  ∀ r : Config.RoundHalf,
  packColour referenceShape r 0 0 0 = 0x000000 ∧ packColour referenceShape r 100 0 0 = 0x00FF00 ∧
  (∀ p q pr pg pb : Pct, p.toNat ≤ q.toNat →
    (packColour referenceShape r p pg pb).toNat ≤ (packColour referenceShape r q pg pb).toNat ∧
    (packColour referenceShape r pr p pb).toNat ≤ (packColour referenceShape r pr q pb).toNat ∧
    (packColour referenceShape r pr pg p).toNat ≤ (packColour referenceShape r pr pg q).toNat) ∧
  (∀ p q : Pct, p.toNat ≤ q.toNat → (conv referenceShape r p).toNat ≤ (conv referenceShape r q).toNat) ∧
  (∀ p : Pct, conv referenceShape r p = 0 ↔ p = 0) ∧
  (∀ p q : Pct, p.toNat < q.toNat → q.toNat ≤ 100 → (conv referenceShape r p).toNat < (conv referenceShape r q).toNat)

/-- R61 (b), R63, R64: the ten masks of the reference ROM differ pairwise; for every ROM, where LIT_COLOUR is (100, 0, 0) as
R63 fixes it, a lit cell's word is 0x00FF00 and an unlit one's is 0. -/
def Obligations.GlyphsDifferAndWordsAreRed : Prop :=
  romDistinct referenceConfig ∧ referenceConfig.litColour = (100, 0, 0) ∧
  (∀ (P : Params) (d : Digit) (i : Cell), P.litColour = (100, 0, 0) →
    frameWord P d i = if (romRead P d).getLsbD i then 0x00FF00 else 0x000000)

/-- R78: in an instance of any shape and for every ROM, the frame of a digit has WORD_W × NUM_PIXELS + 1 symbols, the last
one `Latch`. In the reference shape these are 601; symbol `k` below 600 is `Bit(1)` exactly when cell `k / 24` is lit and
`k mod 24` is 8 to 15 (LIT_COLOUR being (100, 0, 0), as R63 fixes it). -/
def Obligations.FrameSymbolsByPosition : Prop :=
  (∀ (S : Config.Shape) (P : Config.Params S) (d : Fin S.nGlyph),
    (frame P d).length = S.wordW * S.numPixels + 1 ∧ (frame P d).getLast? = some .latch) ∧
  ∀ (P : Params) (d : Digit), P.litColour = (100, 0, 0) →
    (frame P d).length = 601 ∧ (frame P d)[600]? = some .latch ∧
    ∀ k : Nat, k < 600 →
      (frame P d)[k]? = some (.bit ((romRead P d).getLsbD (k / 24) && decide (8 ≤ k % 24) && decide (k % 24 ≤ 15)))

-- The serial engine (file 44).

/-- R74, R75: an SPE turn in SHIFT sends bit BIDX of word WIDX of the frame of TXD, then goes to the next bit down, or to
bit 23 of the next word, or, after the last bit of the last word, to LATCH with a full gap; TXD, the debouncer, ILL and
the host's side stay. -/
def Obligations.ShiftStepSendsBitAndAdvances : Prop :=
  ∀ (s : State) (ts : List Turn), s.turns = .spe :: ts → s.txst = .shift →
    ∃ t, step s = .next t ∧
      t.lt = s.lt ++ [.bit ((frameWord s.config s.txd s.widx).getLsbD s.bidx)] ∧
      (0 < s.bidx.val → t.txst = .shift ∧ t.widx = s.widx ∧ t.bidx.val = s.bidx.val - 1 ∧ t.lcnt = s.lcnt) ∧
      (s.bidx.val = 0 → s.widx.val < 24 →
        t.txst = .shift ∧ t.widx.val = s.widx.val + 1 ∧ t.bidx.val = 23 ∧ t.lcnt = s.lcnt) ∧
      (s.bidx.val = 0 → s.widx.val = 24 → t.txst = .latch ∧ t.widx = s.widx ∧ t.bidx = s.bidx ∧ t.lcnt = gapCycles s.config) ∧
      t.txd = s.txd ∧ t.chA = s.chA ∧ t.chB = s.chB ∧ t.ill = s.ill ∧ t.rspValid = s.rspValid ∧ t.rspData = s.rspData ∧
      t.responses = s.responses ∧ t.cmds = s.cmds ∧ t.now = s.now ∧ t.ltBefore = s.ltBefore ∧ t.config = s.config ∧ t.turns = ts

/-- R76, R77: an SPE turn in LATCH appends `Latch` and goes to IDLE; in IDLE it changes nothing. (That LCNT and the line
are then 0 is the model's reading, log 8.) -/
def Obligations.LatchStepEndsGapAndIdleRests : Prop :=
  ∀ (s : State) (ts : List Turn), s.turns = .spe :: ts →
    (s.txst = .latch →
      step s = .next { s with turns := ts, lt := s.lt ++ [.latch], txst := .idle, lcnt := 0, dout := false }) ∧
    (s.txst = .idle → step s = .next { s with turns := ts })

/-- R77: in any step but a reset, only an accepted RENDER with a digit 0 to 9 leaves IDLE; it goes to SHIFT at bit 23 of
word 0 with nothing on the line yet. -/
def Obligations.OnlyInRangeRenderLeavesIdle : Prop :=
  ∀ s t : State, step s = .next t → s.txst = .idle → t.txst ≠ .idle → (currentTurn s).isReset = false →
    ∃ d : BitVec 8, s.cmds.head? = some (encode (.render d)) ∧ t.txd.val = d.toNat ∧ t.txst = .shift ∧
      t.widx.val = 0 ∧ t.bidx.val = 23 ∧ t.lt = s.lt ∧ t.responses = s.responses ++ [1]

/-- R97: once a status word shows BUSY = 0, no schedule without another command or a reset makes the block busy again: the
RENDER that follows is accepted, with response 1. -/
def Obligations.RenderAfterIdleStatusIsNotHeld : Prop :=
  ∀ (s u : State) (d : BitVec 8) (ts : List Turn), (statusWord s).getLsbD 2 = false → d.toNat < 10 →
    (∀ x ∈ ts, x = .spe ∨ (∃ b, x = .btn b) ∨ (∃ n, x = .clock n) ∨
      ∃ io, x = .cycle io ∧ io.rstN = true ∧ io.cmdValid = false) →
    runTurns ts s = .next u →
    ∃ t, exec (.render d) u = .next t ∧ t.txst = .shift ∧ t.responses = u.responses ++ [1]

/-- R82, R26: in any step but a reset, while the SPE is not IDLE, TXD does not change and TXST goes only from SHIFT to
LATCH or from LATCH to IDLE, if at all; and no command writes any register of the SPE. -/
def Obligations.BusyFrameIsNotDisturbed : Prop :=
  (∀ s t : State, step s = .next t → s.txst ≠ .idle → (currentTurn s).isReset = false →
    t.txd = s.txd ∧
    (t.txst = s.txst ∨ (s.txst = .shift ∧ t.txst = .latch) ∨ (s.txst = .latch ∧ t.txst = .idle))) ∧
  (∀ (i : Instr) (s t : State), exec i s = .next t → s.txst ≠ .idle →
    t.txst = s.txst ∧ t.txd = s.txd ∧ t.widx = s.widx ∧ t.bidx = s.bidx ∧ t.lcnt = s.lcnt ∧ t.pcnt = s.pcnt ∧
    t.dout = s.dout ∧ t.lt = s.lt)

/-- R81, R7: while the SPE is not IDLE, an SPE turn brings it one step nearer to IDLE and puts one symbol on the line; no
turn of another agent moves it back or forth, or touches the line; a clock cycle does one or the other. -/
def Obligations.OnlySpeStepsAdvanceTheFrame : Prop :=
  ∀ s t : State, step s = .next t → s.txst ≠ .idle → (currentTurn s).isReset = false →
    ((currentTurn s ≠ .spe ∧ speStepsLeft t = speStepsLeft s ∧ t.lt = s.lt) ∨
     (speStepsLeft t + 1 = speStepsLeft s ∧ (∃ x, t.lt = s.lt ++ [x]) ∧
       (currentTurn s = .spe ∨ ∃ io, currentTurn s = .cycle io)))

/-- R81: from any busy state the SPE is IDLE after exactly the steps left, at most 600 SHIFT steps and one LATCH step. -/
def Obligations.SpeReachesIdleWithin601Steps : Prop :=
  ∀ s : State, s.txst ≠ .idle →
    speStepsLeft s ≤ 601 ∧ (speStep^[speStepsLeft s] s).txst = .idle ∧
    ∀ k, k < speStepsLeft s → (speStep^[k] s).txst ≠ .idle

/-- R78, R73: after an accepted RENDER, in every schedule without reset (any commands, edges, clock cycles, SPE turns), as
long as the SPE has not been back in IDLE before, the line trace is what it was and the part of the frame sent, so when the
SPE is back in IDLE, the whole frame. In every schedule of the agents' own turns, commands among them, the SPE is back in
IDLE with its 601st turn. -/
def Obligations.AcceptedRenderSendsWholeFrame : Prop :=
  ∀ (s u : State) (d : BitVec 8) (h : d.toNat < 10), s.txst = .idle → exec (.render d) s = .next u →
    (∀ (ts : List Turn) (v : State), (∀ x ∈ ts, x.isReset = false) → runTurns ts u = .next v →
      (∀ n, n < ts.length → ∀ w, runTurns (ts.take n) u = .next w → w.txst ≠ .idle) →
      v.lt = s.lt ++ (frame s.config ⟨d.toNat, h⟩).take (601 - speStepsLeft v) ∧
      (v.txst = .idle → v.lt = s.lt ++ frame s.config ⟨d.toNat, h⟩)) ∧
    (∀ ts : List Turn, (∀ x ∈ ts, ∀ io, x ≠ .cycle io) → ts.count .spe = 600 →
      ∃ v, runTurns (ts ++ [.spe]) u = .next v ∧ v.txst = .idle ∧ v.lt = s.lt ++ frame s.config ⟨d.toNat, h⟩)

/-- R78, R94, R77, R76, R24: the machine's invariant is kept by every step, from every state that meets it: the line low
outside SHIFT, the counters in their ranges, the offered response the last one given, and the line trace made of `Latch`,
whole frames, and exactly the bits sent of a frame in flight. (The ranges of the hidden counters are the model's choice,
logs 8, 9, 10.) -/
def Obligations.EveryStepKeepsInvariant : Prop :=
  ∀ s t : State, MachineInvariant s → step s = .next t → MachineInvariant t

/-- R93: the state after reset meets the invariant. -/
def Obligations.ResetMeetsInvariant : Prop :=
  MachineInvariant State.reset

/-- R94: after a reset, from any state and in every schedule with any commands, the first symbol on the line is
`Latch`. -/
def Obligations.FirstSymbolAfterResetIsLatch : Prop :=
  ∀ (s t : State) (ts : List Turn) (cs : List Word) (k : Nat),
    core.run k { resetBlock s with turns := ts, cmds := cs } = .next t → t.lt = [] ∨ t.lt.head? = some .latch

-- The clock cycle (files 20, 41, 44, 70).

/-- R26, R28, R6: one clock cycle without reset does, to everything the transaction level sees, exactly what the agents' own
steps do one after another, NOW being set first: the HOST's if it presents a command, then A's and B's if their edge
detectors fire, then the SPE's if it is at the end of a bit period or of the gap (that moment is the model's choice,
log 9), and no other. -/
def Obligations.CycleIsOrderedAgentSteps : Prop :=
  ∀ (io : CycleIn) (s : State), io.rstN = true →
    ∃ t u, takeTurn (.cycle io) s = .next t ∧ runTurns (.clock io.nowMs :: cycleTurns io s) s = .next u ∧
      view u = view t ∧
      cycleTurns io s =
        (if io.cmdValid = true then [.host] else []) ++
        (if s.chA.lvl = true ∧ s.chA.sync.getLsbD 1 = false then [.btn .A] else []) ++
        (if s.chB.lvl = true ∧ s.chB.sync.getLsbD 1 = false then [.btn .B] else []) ++
        (if (s.txst = .shift ∧ bitCycles s.config ≤ s.pcnt + 1) ∨ (s.txst = .latch ∧ s.lcnt = 0) then [.spe] else [])

/-- R83, R48, R24: an illegal word presented in a clock cycle, whatever the state, is accepted in it: ILL is 1 after it and
the response 0 is offered. -/
def Obligations.IllegalWordInCycleSetsIll : Prop :=
  ∀ (s : State) (w : Word) (rest : List Word) (io : CycleIn) (ts : List Turn), s.turns = .cycle io :: ts →
    io.rstN = true → io.cmdValid = true → s.cmds = w :: rest → legalWord w = false →
    ∃ t, step s = .next t ∧ t.ill = true ∧ t.rspValid = true ∧ t.rspData = 0 ∧
      t.responses = s.responses ++ [0] ∧ t.cmds = rest

/-- R52, R53, R54, R26: what a clock cycle without reset does to a channel, whatever else it does: a detected edge that passes
the test sets PEND and writes TS with the time of the cycle; else TS stays, and PEND falls if the cycle presents the
channel's ACK and stays if not. The pin is shifted into the synchroniser, and LVL takes its output. -/
def Obligations.CycleUpdatesChannels : Prop :=
  ∀ (s : State) (b : Button) (io : CycleIn) (ts : List Turn), s.turns = .cycle io :: ts → io.rstN = true →
    ∃ t, step s = .next t ∧
      (t.chan b).ts = (if (s.chan b).falling = true ∧ s.config.debounceMs < (io.nowMs - (s.chan b).ts).toNat
        then io.nowMs else (s.chan b).ts) ∧
      (t.chan b).pend = (if (s.chan b).falling = true ∧ s.config.debounceMs < (io.nowMs - (s.chan b).ts).toNat then true
        else if io.cmdValid = true ∧ s.cmds.head? = some (encode (.ack b)) then false else (s.chan b).pend) ∧
      (t.chan b).sync.getLsbD 0 = io.btnN b ∧ (t.chan b).sync.getLsbD 1 = (s.chan b).sync.getLsbD 0 ∧
      (t.chan b).lvl = (s.chan b).sync.getLsbD 1

/-- R26: an ACK in the cycle of an accepted edge on its channel answers the flag as it was, and the set wins. -/
def Obligations.EdgeSetWinsOverAckInOneCycle : Prop :=
  ∀ (s : State) (b : Button) (io : CycleIn) (rest : List Word) (ts : List Turn), s.turns = .cycle io :: ts →
    io.rstN = true → io.cmdValid = true → s.cmds = encode (.ack b) :: rest → (s.chan b).falling = true →
    s.config.debounceMs < (io.nowMs - (s.chan b).ts).toNat →
    ∃ t, step s = .next t ∧ t.rspValid = true ∧ t.rspData = (if (s.chan b).pend then 1 else 0) ∧
      (t.chan b).pend = true ∧ (t.chan b).ts = io.nowMs

/-- R26, R50, R57: RDSTAT and RDTS in a cycle answer the values at its start, whatever edges it accepts. -/
def Obligations.ReadsInOneCycleSeeItsStart : Prop :=
  ∀ (s : State) (io : CycleIn) (rest : List Word) (ts : List Turn), s.turns = .cycle io :: ts →
    io.rstN = true → io.cmdValid = true →
    (s.cmds = encode .rdstat :: rest → ∃ t, step s = .next t ∧ t.rspValid = true ∧ t.rspData = statusWord s) ∧
    (∀ b, s.cmds = encode (.rdts b) :: rest → ∃ t, step s = .next t ∧ t.rspValid = true ∧ t.rspData = (s.chan b).ts)

/-- R93: what every register holds after reset, the status word 0x0000000C and irq 0 with it. (`rspData` and `now` are
not in it: their values at reset are the model's, logs 4 and 5.) -/
def Obligations.ResetStateValues : Prop :=
  (∀ b, State.reset.chan b = { pend := false, ts := 0x00000000, sync := 0b11, lvl := true }) ∧
  State.reset.ill = false ∧ State.reset.txst = .latch ∧ State.reset.txd.val = 0 ∧ State.reset.widx.val = 0 ∧
  State.reset.bidx.val = 23 ∧ State.reset.lcnt = gapCycles referenceConfig ∧ State.reset.pcnt = 0 ∧ State.reset.dout = false ∧
  State.reset.rspValid = false ∧ State.reset.lt = [] ∧
  statusWord State.reset = 0x0000000C ∧ irq State.reset = false

/-- R93: a clock edge with rst_n = 0, from any state, gives the block its reset values and accepts no command; NOW, the
host's words and the responses it has had stay the environment's. (That the old trace is kept beside the new one, and that
the edge itself adds no symbol to it, are the model's choices, logs 7 and 24.) -/
def Obligations.ResetCycleResetsBlock : Prop :=
  ∀ (s : State) (io : CycleIn) (ts : List Turn), s.turns = .cycle io :: ts → io.rstN = false →
    step s = .next { resetOf s.config with
      ltBefore := s.ltBefore ++ s.lt, responses := s.responses, now := io.nowMs, cmds := s.cmds, turns := ts }

/-- R52, R99, R15: over three cycles without reset, from any state, channel A (and so B) detects a falling edge in the
cycle after them exactly when the line was sampled high in the first and low in the second: SYNC_STAGES cycles after the
transition, and never on a rising edge. -/
def Obligations.FallingEdgeIsSeenAfterTwoCycles : Prop :=
  ∀ (s : State) (i j k : CycleIn) (ts : List Turn), s.turns = .cycle i :: .cycle j :: .cycle k :: ts →
    i.rstN = true → j.rstN = true → k.rstN = true →
    ∃ t, core.run 3 s = .next t ∧
      t.chA.falling = (i.btnNA && !j.btnNA) ∧ t.chB.falling = (i.btnNB && !j.btnNB)

/-- R52, R99, R15: in an instance with any number of synchroniser stages, after SYNC_STAGES + 1 cycles without reset, from
any state, a channel detects a falling edge exactly when its line was sampled high in the first and low in the second of
them. -/
def Obligations.FallingEdgeIsSeenAfterSyncStages : Prop :=
  ∀ (S : Config.Shape) (s : Shaped.State S) (b : Button) (i j : Shaped.CycleIn S) (ios : List (Shaped.CycleIn S)),
    hasChannel S b = true → ios.length + 1 = S.syncStages → (∀ io ∈ i :: j :: ios, io.rstN = true) →
    ∃ t, runTurns ((i :: j :: ios).map .cycle) s = .next t ∧ (t.chan b).falling = (i.btnN b && !j.btnN b)

/-- R95: a button held down through reset gives one falling edge in the third cycle after it, accepted exactly if the time
then is more than DEBOUNCE_MS from TS_RESET: in the reference instance, more than 200. -/
def Obligations.ButtonHeldThroughResetIsOneEdge : Prop :=
  referenceConfig.debounceMs = 200 ∧ referenceConfig.tsReset = 0 ∧
  ∀ (s : State) (r i j k l : CycleIn) (ts : List Turn),
    s.turns = .cycle r :: .cycle i :: .cycle j :: .cycle k :: .cycle l :: ts →
    r.rstN = false → (∀ io ∈ [i, j, k, l], io.rstN = true ∧ io.btnNA = false ∧ io.cmdValid = false) →
    ∃ t, core.run 5 s = .next t ∧
      t.chA.pend = decide (s.config.debounceMs < (k.nowMs - s.config.tsReset).toNat) ∧
      t.chA.ts = (if s.config.debounceMs < (k.nowMs - s.config.tsReset).toNat then k.nowMs else s.config.tsReset)

/-- R79 (with the model's choices of logs 9 and 10): one cycle in SHIFT without reset counts the bit period, or ends it by
sending the bit; after it the line is high exactly in the first T1H or T0H cycles of the bit then being sent. -/
def Obligations.ShiftCycleFollowsBitWaveform : Prop :=
  ∀ (s : State) (io : CycleIn), io.rstN = true → s.txst = .shift →
    ∃ t, takeTurn (.cycle io) s = .next t ∧
      t.pcnt = (if s.pcnt + 1 < bitCycles s.config then s.pcnt + 1 else 0) ∧
      t.lt = (if s.pcnt + 1 < bitCycles s.config then s.lt else s.lt ++ [.bit (currentBit s)]) ∧
      (t.dout = true ↔ t.txst = .shift ∧ t.pcnt < highCycles s.config ((frameWord s.config t.txd t.widx).getLsbD t.bidx))

/-- R76, R80, R94 (with the model's choice of the firing cycle, log 9): in LATCH the line stays low and the trace as it is
for as many cycles as LCNT holds; the cycle after them ends the gap. -/
def Obligations.LatchGapLastsItsCount : Prop :=
  ∀ (s : State) (ios : List CycleIn), s.txst = .latch → (∀ io ∈ ios, io.rstN = true) → s.turns = ios.map .cycle →
    (ios.length ≤ s.lcnt → ∃ t, core.run ios.length s = .next t ∧ t.txst = .latch ∧ t.lcnt = s.lcnt - ios.length ∧
      t.lt = s.lt ∧ (ios ≠ [] → t.dout = false)) ∧
    (ios.length = s.lcnt + 1 → ∃ t, core.run ios.length s = .next t ∧
      (t.txst = .idle) ∧ t.lt = s.lt ++ [.latch] ∧ t.dout = false)
end

