-- ==== Sys2Proof/Laws/State.lean ====
section
/-! SUPPORT. One lemma per field per update of State, true by rfl, so that no later proof unfolds a record update. -/

namespace Sys2Proof.Machine

variable {S : Config.Shape}

-- The parameters of the reference shape (R5), as numbers.
@[simp] theorem referenceShape_nBtn : referenceShape.nBtn = 2 := rfl
@[simp] theorem referenceShape_tsW : referenceShape.tsW = 32 := rfl
@[simp] theorem referenceShape_syncStages : referenceShape.syncStages = 2 := rfl
@[simp] theorem referenceShape_nGlyph : referenceShape.nGlyph = 10 := rfl
@[simp] theorem referenceShape_numPixels : referenceShape.numPixels = 25 := rfl
@[simp] theorem referenceShape_pctW : referenceShape.pctW = 7 := rfl
@[simp] theorem referenceShape_devW : referenceShape.devW = 8 := rfl
@[simp] theorem referenceShape_wordW : referenceShape.wordW = 24 := rfl
@[simp] theorem referenceShape_cmdW : referenceShape.cmdW = 32 := rfl
@[simp] theorem referenceShape_rspW : referenceShape.rspW = 32 := rfl
@[simp] theorem fullScale_reference : fullScale referenceShape = 255 := rfl
@[simp] theorem hasChannel_reference (b : Button) : hasChannel referenceShape b = true := by cases b <;> rfl
@[simp] theorem topBit_val : (topBit S).val = S.wordW - 1 := rfl
@[simp] theorem topBit_reference : topBit referenceShape = ⟨23, by decide⟩ := rfl

-- State.setChan writes one channel and nothing else.
@[simp] theorem setChan_config (s : Shaped.State S) (b : Button) (c : Shaped.Channel S) : (s.setChan b c).config = s.config := rfl
@[simp] theorem setChan_ill (s : Shaped.State S) (b : Button) (c : Shaped.Channel S) : (s.setChan b c).ill = s.ill := rfl
@[simp] theorem setChan_txst (s : Shaped.State S) (b : Button) (c : Shaped.Channel S) : (s.setChan b c).txst = s.txst := rfl
@[simp] theorem setChan_txd (s : Shaped.State S) (b : Button) (c : Shaped.Channel S) : (s.setChan b c).txd = s.txd := rfl
@[simp] theorem setChan_widx (s : Shaped.State S) (b : Button) (c : Shaped.Channel S) : (s.setChan b c).widx = s.widx := rfl
@[simp] theorem setChan_bidx (s : Shaped.State S) (b : Button) (c : Shaped.Channel S) : (s.setChan b c).bidx = s.bidx := rfl
@[simp] theorem setChan_lcnt (s : Shaped.State S) (b : Button) (c : Shaped.Channel S) : (s.setChan b c).lcnt = s.lcnt := rfl
@[simp] theorem setChan_pcnt (s : Shaped.State S) (b : Button) (c : Shaped.Channel S) : (s.setChan b c).pcnt = s.pcnt := rfl
@[simp] theorem setChan_dout (s : Shaped.State S) (b : Button) (c : Shaped.Channel S) : (s.setChan b c).dout = s.dout := rfl
@[simp] theorem setChan_rspValid (s : Shaped.State S) (b : Button) (c : Shaped.Channel S) : (s.setChan b c).rspValid = s.rspValid := rfl
@[simp] theorem setChan_rspData (s : Shaped.State S) (b : Button) (c : Shaped.Channel S) : (s.setChan b c).rspData = s.rspData := rfl
@[simp] theorem setChan_lt (s : Shaped.State S) (b : Button) (c : Shaped.Channel S) : (s.setChan b c).lt = s.lt := rfl
@[simp] theorem setChan_ltBefore (s : Shaped.State S) (b : Button) (c : Shaped.Channel S) : (s.setChan b c).ltBefore = s.ltBefore := rfl
@[simp] theorem setChan_responses (s : Shaped.State S) (b : Button) (c : Shaped.Channel S) : (s.setChan b c).responses = s.responses := rfl
@[simp] theorem setChan_now (s : Shaped.State S) (b : Button) (c : Shaped.Channel S) : (s.setChan b c).now = s.now := rfl
@[simp] theorem setChan_cmds (s : Shaped.State S) (b : Button) (c : Shaped.Channel S) : (s.setChan b c).cmds = s.cmds := rfl
@[simp] theorem setChan_turns (s : Shaped.State S) (b : Button) (c : Shaped.Channel S) : (s.setChan b c).turns = s.turns := rfl
@[simp] theorem setChan_A_chA (s : Shaped.State S) (c : Shaped.Channel S) : (s.setChan .A c).chA = c := rfl
@[simp] theorem setChan_A_chB (s : Shaped.State S) (c : Shaped.Channel S) : (s.setChan .A c).chB = s.chB := rfl
@[simp] theorem setChan_B_chA (s : Shaped.State S) (c : Shaped.Channel S) : (s.setChan .B c).chA = s.chA := rfl
@[simp] theorem setChan_B_chB (s : Shaped.State S) (c : Shaped.Channel S) : (s.setChan .B c).chB = c := rfl
@[simp] theorem chan_A (s : Shaped.State S) : s.chan .A = s.chA := rfl
@[simp] theorem chan_B (s : Shaped.State S) : s.chan .B = s.chB := rfl

@[simp] theorem setPend_config (b : Button) (v : Bool) (s : Shaped.State S) : (setPend b v s).config = s.config := rfl
@[simp] theorem setPend_chA (b : Button) (v : Bool) (s : Shaped.State S) : (setPend b v s).chA = match b with | .A => s.chA.withPend v | .B => s.chA := by cases b <;> rfl
@[simp] theorem setPend_chB (b : Button) (v : Bool) (s : Shaped.State S) : (setPend b v s).chB = match b with | .A => s.chB | .B => s.chB.withPend v := by cases b <;> rfl
@[simp] theorem setPend_ill (b : Button) (v : Bool) (s : Shaped.State S) : (setPend b v s).ill = s.ill := rfl
@[simp] theorem setPend_txst (b : Button) (v : Bool) (s : Shaped.State S) : (setPend b v s).txst = s.txst := rfl
@[simp] theorem setPend_txd (b : Button) (v : Bool) (s : Shaped.State S) : (setPend b v s).txd = s.txd := rfl
@[simp] theorem setPend_widx (b : Button) (v : Bool) (s : Shaped.State S) : (setPend b v s).widx = s.widx := rfl
@[simp] theorem setPend_bidx (b : Button) (v : Bool) (s : Shaped.State S) : (setPend b v s).bidx = s.bidx := rfl
@[simp] theorem setPend_lcnt (b : Button) (v : Bool) (s : Shaped.State S) : (setPend b v s).lcnt = s.lcnt := rfl
@[simp] theorem setPend_pcnt (b : Button) (v : Bool) (s : Shaped.State S) : (setPend b v s).pcnt = s.pcnt := rfl
@[simp] theorem setPend_dout (b : Button) (v : Bool) (s : Shaped.State S) : (setPend b v s).dout = s.dout := rfl
@[simp] theorem setPend_rspValid (b : Button) (v : Bool) (s : Shaped.State S) : (setPend b v s).rspValid = s.rspValid := rfl
@[simp] theorem setPend_rspData (b : Button) (v : Bool) (s : Shaped.State S) : (setPend b v s).rspData = s.rspData := rfl
@[simp] theorem setPend_lt (b : Button) (v : Bool) (s : Shaped.State S) : (setPend b v s).lt = s.lt := rfl
@[simp] theorem setPend_ltBefore (b : Button) (v : Bool) (s : Shaped.State S) : (setPend b v s).ltBefore = s.ltBefore := rfl
@[simp] theorem setPend_responses (b : Button) (v : Bool) (s : Shaped.State S) : (setPend b v s).responses = s.responses := rfl
@[simp] theorem setPend_now (b : Button) (v : Bool) (s : Shaped.State S) : (setPend b v s).now = s.now := rfl
@[simp] theorem setPend_cmds (b : Button) (v : Bool) (s : Shaped.State S) : (setPend b v s).cmds = s.cmds := rfl
@[simp] theorem setPend_turns (b : Button) (v : Bool) (s : Shaped.State S) : (setPend b v s).turns = s.turns := rfl

@[simp] theorem respond_config (v : S.Rsp) (s : Shaped.State S) : (respond v s).config = s.config := rfl
@[simp] theorem respond_chA (v : S.Rsp) (s : Shaped.State S) : (respond v s).chA = s.chA := rfl
@[simp] theorem respond_chB (v : S.Rsp) (s : Shaped.State S) : (respond v s).chB = s.chB := rfl
@[simp] theorem respond_ill (v : S.Rsp) (s : Shaped.State S) : (respond v s).ill = s.ill := rfl
@[simp] theorem respond_txst (v : S.Rsp) (s : Shaped.State S) : (respond v s).txst = s.txst := rfl
@[simp] theorem respond_txd (v : S.Rsp) (s : Shaped.State S) : (respond v s).txd = s.txd := rfl
@[simp] theorem respond_widx (v : S.Rsp) (s : Shaped.State S) : (respond v s).widx = s.widx := rfl
@[simp] theorem respond_bidx (v : S.Rsp) (s : Shaped.State S) : (respond v s).bidx = s.bidx := rfl
@[simp] theorem respond_lcnt (v : S.Rsp) (s : Shaped.State S) : (respond v s).lcnt = s.lcnt := rfl
@[simp] theorem respond_pcnt (v : S.Rsp) (s : Shaped.State S) : (respond v s).pcnt = s.pcnt := rfl
@[simp] theorem respond_dout (v : S.Rsp) (s : Shaped.State S) : (respond v s).dout = s.dout := rfl
@[simp] theorem respond_rspValid (v : S.Rsp) (s : Shaped.State S) : (respond v s).rspValid = true := rfl
@[simp] theorem respond_rspData (v : S.Rsp) (s : Shaped.State S) : (respond v s).rspData = v := rfl
@[simp] theorem respond_lt (v : S.Rsp) (s : Shaped.State S) : (respond v s).lt = s.lt := rfl
@[simp] theorem respond_ltBefore (v : S.Rsp) (s : Shaped.State S) : (respond v s).ltBefore = s.ltBefore := rfl
@[simp] theorem respond_responses (v : S.Rsp) (s : Shaped.State S) : (respond v s).responses = s.responses ++ [v] := rfl
@[simp] theorem respond_now (v : S.Rsp) (s : Shaped.State S) : (respond v s).now = s.now := rfl
@[simp] theorem respond_cmds (v : S.Rsp) (s : Shaped.State S) : (respond v s).cmds = s.cmds.tail := rfl
@[simp] theorem respond_turns (v : S.Rsp) (s : Shaped.State S) : (respond v s).turns = s.turns := rfl

@[simp] theorem raiseIllegalCommand_config (s : Shaped.State S) : (raiseIllegalCommand s).config = s.config := rfl
@[simp] theorem raiseIllegalCommand_chA (s : Shaped.State S) : (raiseIllegalCommand s).chA = s.chA := rfl
@[simp] theorem raiseIllegalCommand_chB (s : Shaped.State S) : (raiseIllegalCommand s).chB = s.chB := rfl
@[simp] theorem raiseIllegalCommand_ill (s : Shaped.State S) : (raiseIllegalCommand s).ill = true := rfl
@[simp] theorem raiseIllegalCommand_txst (s : Shaped.State S) : (raiseIllegalCommand s).txst = s.txst := rfl
@[simp] theorem raiseIllegalCommand_txd (s : Shaped.State S) : (raiseIllegalCommand s).txd = s.txd := rfl
@[simp] theorem raiseIllegalCommand_widx (s : Shaped.State S) : (raiseIllegalCommand s).widx = s.widx := rfl
@[simp] theorem raiseIllegalCommand_bidx (s : Shaped.State S) : (raiseIllegalCommand s).bidx = s.bidx := rfl
@[simp] theorem raiseIllegalCommand_lcnt (s : Shaped.State S) : (raiseIllegalCommand s).lcnt = s.lcnt := rfl
@[simp] theorem raiseIllegalCommand_pcnt (s : Shaped.State S) : (raiseIllegalCommand s).pcnt = s.pcnt := rfl
@[simp] theorem raiseIllegalCommand_dout (s : Shaped.State S) : (raiseIllegalCommand s).dout = s.dout := rfl
@[simp] theorem raiseIllegalCommand_rspValid (s : Shaped.State S) : (raiseIllegalCommand s).rspValid = true := rfl
@[simp] theorem raiseIllegalCommand_rspData (s : Shaped.State S) : (raiseIllegalCommand s).rspData = 0 := rfl
@[simp] theorem raiseIllegalCommand_lt (s : Shaped.State S) : (raiseIllegalCommand s).lt = s.lt := rfl
@[simp] theorem raiseIllegalCommand_ltBefore (s : Shaped.State S) : (raiseIllegalCommand s).ltBefore = s.ltBefore := rfl
@[simp] theorem raiseIllegalCommand_responses (s : Shaped.State S) : (raiseIllegalCommand s).responses = s.responses ++ [0] := rfl
@[simp] theorem raiseIllegalCommand_now (s : Shaped.State S) : (raiseIllegalCommand s).now = s.now := rfl
@[simp] theorem raiseIllegalCommand_cmds (s : Shaped.State S) : (raiseIllegalCommand s).cmds = s.cmds.tail := rfl
@[simp] theorem raiseIllegalCommand_turns (s : Shaped.State S) : (raiseIllegalCommand s).turns = s.turns := rfl

@[simp] theorem emit_config (x : Sym) (s : Shaped.State S) : (emit x s).config = s.config := rfl
@[simp] theorem emit_chA (x : Sym) (s : Shaped.State S) : (emit x s).chA = s.chA := rfl
@[simp] theorem emit_chB (x : Sym) (s : Shaped.State S) : (emit x s).chB = s.chB := rfl
@[simp] theorem emit_ill (x : Sym) (s : Shaped.State S) : (emit x s).ill = s.ill := rfl
@[simp] theorem emit_txst (x : Sym) (s : Shaped.State S) : (emit x s).txst = s.txst := rfl
@[simp] theorem emit_txd (x : Sym) (s : Shaped.State S) : (emit x s).txd = s.txd := rfl
@[simp] theorem emit_widx (x : Sym) (s : Shaped.State S) : (emit x s).widx = s.widx := rfl
@[simp] theorem emit_bidx (x : Sym) (s : Shaped.State S) : (emit x s).bidx = s.bidx := rfl
@[simp] theorem emit_lcnt (x : Sym) (s : Shaped.State S) : (emit x s).lcnt = s.lcnt := rfl
@[simp] theorem emit_pcnt (x : Sym) (s : Shaped.State S) : (emit x s).pcnt = s.pcnt := rfl
@[simp] theorem emit_dout (x : Sym) (s : Shaped.State S) : (emit x s).dout = s.dout := rfl
@[simp] theorem emit_rspValid (x : Sym) (s : Shaped.State S) : (emit x s).rspValid = s.rspValid := rfl
@[simp] theorem emit_rspData (x : Sym) (s : Shaped.State S) : (emit x s).rspData = s.rspData := rfl
@[simp] theorem emit_lt (x : Sym) (s : Shaped.State S) : (emit x s).lt = s.lt ++ [x] := rfl
@[simp] theorem emit_ltBefore (x : Sym) (s : Shaped.State S) : (emit x s).ltBefore = s.ltBefore := rfl
@[simp] theorem emit_responses (x : Sym) (s : Shaped.State S) : (emit x s).responses = s.responses := rfl
@[simp] theorem emit_now (x : Sym) (s : Shaped.State S) : (emit x s).now = s.now := rfl
@[simp] theorem emit_cmds (x : Sym) (s : Shaped.State S) : (emit x s).cmds = s.cmds := rfl
@[simp] theorem emit_turns (x : Sym) (s : Shaped.State S) : (emit x s).turns = s.turns := rfl

@[simp] theorem resetBlock_config (s : Shaped.State S) : (resetBlock s).config = s.config := rfl
@[simp] theorem resetBlock_chA (s : Shaped.State S) : (resetBlock s).chA = channelReset s.config := rfl
@[simp] theorem resetBlock_chB (s : Shaped.State S) : (resetBlock s).chB = channelReset s.config := rfl
@[simp] theorem resetBlock_ill (s : Shaped.State S) : (resetBlock s).ill = false := rfl
@[simp] theorem resetBlock_txst (s : Shaped.State S) : (resetBlock s).txst = .latch := rfl
@[simp] theorem resetBlock_txd (s : Shaped.State S) : (resetBlock s).txd = ⟨0, S.nGlyph_pos⟩ := rfl
@[simp] theorem resetBlock_widx (s : Shaped.State S) : (resetBlock s).widx = ⟨0, S.numPixels_pos⟩ := rfl
@[simp] theorem resetBlock_bidx (s : Shaped.State S) : (resetBlock s).bidx = topBit S := rfl
@[simp] theorem resetBlock_lcnt (s : Shaped.State S) : (resetBlock s).lcnt = gapCycles s.config := rfl
@[simp] theorem resetBlock_pcnt (s : Shaped.State S) : (resetBlock s).pcnt = 0 := rfl
@[simp] theorem resetBlock_dout (s : Shaped.State S) : (resetBlock s).dout = false := rfl
@[simp] theorem resetBlock_rspValid (s : Shaped.State S) : (resetBlock s).rspValid = false := rfl
@[simp] theorem resetBlock_rspData (s : Shaped.State S) : (resetBlock s).rspData = 0 := rfl
@[simp] theorem resetBlock_lt (s : Shaped.State S) : (resetBlock s).lt = [] := rfl
@[simp] theorem resetBlock_ltBefore (s : Shaped.State S) : (resetBlock s).ltBefore = s.ltBefore ++ s.lt := rfl
@[simp] theorem resetBlock_responses (s : Shaped.State S) : (resetBlock s).responses = s.responses := rfl
@[simp] theorem resetBlock_now (s : Shaped.State S) : (resetBlock s).now = s.now := rfl
@[simp] theorem resetBlock_cmds (s : Shaped.State S) : (resetBlock s).cmds = s.cmds := rfl
@[simp] theorem resetBlock_turns (s : Shaped.State S) : (resetBlock s).turns = s.turns := rfl

@[simp] theorem startFrame_config (d : Fin S.nGlyph) (s : Shaped.State S) : (startFrame d s).config = s.config := rfl
@[simp] theorem startFrame_chA (d : Fin S.nGlyph) (s : Shaped.State S) : (startFrame d s).chA = s.chA := rfl
@[simp] theorem startFrame_chB (d : Fin S.nGlyph) (s : Shaped.State S) : (startFrame d s).chB = s.chB := rfl
@[simp] theorem startFrame_ill (d : Fin S.nGlyph) (s : Shaped.State S) : (startFrame d s).ill = s.ill := rfl
@[simp] theorem startFrame_txst (d : Fin S.nGlyph) (s : Shaped.State S) : (startFrame d s).txst = .shift := rfl
@[simp] theorem startFrame_txd (d : Fin S.nGlyph) (s : Shaped.State S) : (startFrame d s).txd = d := rfl
@[simp] theorem startFrame_widx (d : Fin S.nGlyph) (s : Shaped.State S) : (startFrame d s).widx = ⟨0, S.numPixels_pos⟩ := rfl
@[simp] theorem startFrame_bidx (d : Fin S.nGlyph) (s : Shaped.State S) : (startFrame d s).bidx = topBit S := rfl
@[simp] theorem startFrame_lcnt (d : Fin S.nGlyph) (s : Shaped.State S) : (startFrame d s).lcnt = s.lcnt := rfl
@[simp] theorem startFrame_pcnt (d : Fin S.nGlyph) (s : Shaped.State S) : (startFrame d s).pcnt = s.pcnt := rfl
@[simp] theorem startFrame_dout (d : Fin S.nGlyph) (s : Shaped.State S) : (startFrame d s).dout = s.dout := rfl
@[simp] theorem startFrame_rspValid (d : Fin S.nGlyph) (s : Shaped.State S) : (startFrame d s).rspValid = s.rspValid := rfl
@[simp] theorem startFrame_rspData (d : Fin S.nGlyph) (s : Shaped.State S) : (startFrame d s).rspData = s.rspData := rfl
@[simp] theorem startFrame_lt (d : Fin S.nGlyph) (s : Shaped.State S) : (startFrame d s).lt = s.lt := rfl
@[simp] theorem startFrame_ltBefore (d : Fin S.nGlyph) (s : Shaped.State S) : (startFrame d s).ltBefore = s.ltBefore := rfl
@[simp] theorem startFrame_responses (d : Fin S.nGlyph) (s : Shaped.State S) : (startFrame d s).responses = s.responses := rfl
@[simp] theorem startFrame_now (d : Fin S.nGlyph) (s : Shaped.State S) : (startFrame d s).now = s.now := rfl
@[simp] theorem startFrame_cmds (d : Fin S.nGlyph) (s : Shaped.State S) : (startFrame d s).cmds = s.cmds := rfl
@[simp] theorem startFrame_turns (d : Fin S.nGlyph) (s : Shaped.State S) : (startFrame d s).turns = s.turns := rfl

@[simp] theorem endBitPeriod_config (s : Shaped.State S) : (endBitPeriod s).config = s.config := rfl
@[simp] theorem endBitPeriod_chA (s : Shaped.State S) : (endBitPeriod s).chA = s.chA := rfl
@[simp] theorem endBitPeriod_chB (s : Shaped.State S) : (endBitPeriod s).chB = s.chB := rfl
@[simp] theorem endBitPeriod_ill (s : Shaped.State S) : (endBitPeriod s).ill = s.ill := rfl
@[simp] theorem endBitPeriod_txst (s : Shaped.State S) : (endBitPeriod s).txst = s.txst := rfl
@[simp] theorem endBitPeriod_txd (s : Shaped.State S) : (endBitPeriod s).txd = s.txd := rfl
@[simp] theorem endBitPeriod_widx (s : Shaped.State S) : (endBitPeriod s).widx = s.widx := rfl
@[simp] theorem endBitPeriod_bidx (s : Shaped.State S) : (endBitPeriod s).bidx = s.bidx := rfl
@[simp] theorem endBitPeriod_lcnt (s : Shaped.State S) : (endBitPeriod s).lcnt = s.lcnt := rfl
@[simp] theorem endBitPeriod_pcnt (s : Shaped.State S) : (endBitPeriod s).pcnt = 0 := rfl
@[simp] theorem endBitPeriod_dout (s : Shaped.State S) : (endBitPeriod s).dout = false := rfl
@[simp] theorem endBitPeriod_rspValid (s : Shaped.State S) : (endBitPeriod s).rspValid = s.rspValid := rfl
@[simp] theorem endBitPeriod_rspData (s : Shaped.State S) : (endBitPeriod s).rspData = s.rspData := rfl
@[simp] theorem endBitPeriod_lt (s : Shaped.State S) : (endBitPeriod s).lt = s.lt := rfl
@[simp] theorem endBitPeriod_ltBefore (s : Shaped.State S) : (endBitPeriod s).ltBefore = s.ltBefore := rfl
@[simp] theorem endBitPeriod_responses (s : Shaped.State S) : (endBitPeriod s).responses = s.responses := rfl
@[simp] theorem endBitPeriod_now (s : Shaped.State S) : (endBitPeriod s).now = s.now := rfl
@[simp] theorem endBitPeriod_cmds (s : Shaped.State S) : (endBitPeriod s).cmds = s.cmds := rfl
@[simp] theorem endBitPeriod_turns (s : Shaped.State S) : (endBitPeriod s).turns = s.turns := rfl

@[simp] theorem speLatch_config (s : Shaped.State S) : (speLatch s).config = s.config := rfl
@[simp] theorem speLatch_chA (s : Shaped.State S) : (speLatch s).chA = s.chA := rfl
@[simp] theorem speLatch_chB (s : Shaped.State S) : (speLatch s).chB = s.chB := rfl
@[simp] theorem speLatch_ill (s : Shaped.State S) : (speLatch s).ill = s.ill := rfl
@[simp] theorem speLatch_txst (s : Shaped.State S) : (speLatch s).txst = .idle := rfl
@[simp] theorem speLatch_txd (s : Shaped.State S) : (speLatch s).txd = s.txd := rfl
@[simp] theorem speLatch_widx (s : Shaped.State S) : (speLatch s).widx = s.widx := rfl
@[simp] theorem speLatch_bidx (s : Shaped.State S) : (speLatch s).bidx = s.bidx := rfl
@[simp] theorem speLatch_lcnt (s : Shaped.State S) : (speLatch s).lcnt = 0 := rfl
@[simp] theorem speLatch_pcnt (s : Shaped.State S) : (speLatch s).pcnt = s.pcnt := rfl
@[simp] theorem speLatch_dout (s : Shaped.State S) : (speLatch s).dout = false := rfl
@[simp] theorem speLatch_rspValid (s : Shaped.State S) : (speLatch s).rspValid = s.rspValid := rfl
@[simp] theorem speLatch_rspData (s : Shaped.State S) : (speLatch s).rspData = s.rspData := rfl
@[simp] theorem speLatch_lt (s : Shaped.State S) : (speLatch s).lt = s.lt ++ [.latch] := rfl
@[simp] theorem speLatch_ltBefore (s : Shaped.State S) : (speLatch s).ltBefore = s.ltBefore := rfl
@[simp] theorem speLatch_responses (s : Shaped.State S) : (speLatch s).responses = s.responses := rfl
@[simp] theorem speLatch_now (s : Shaped.State S) : (speLatch s).now = s.now := rfl
@[simp] theorem speLatch_cmds (s : Shaped.State S) : (speLatch s).cmds = s.cmds := rfl
@[simp] theorem speLatch_turns (s : Shaped.State S) : (speLatch s).turns = s.turns := rfl

@[simp] theorem driveLine_config (s : Shaped.State S) : (driveLine s).config = s.config := rfl
@[simp] theorem driveLine_chA (s : Shaped.State S) : (driveLine s).chA = s.chA := rfl
@[simp] theorem driveLine_chB (s : Shaped.State S) : (driveLine s).chB = s.chB := rfl
@[simp] theorem driveLine_ill (s : Shaped.State S) : (driveLine s).ill = s.ill := rfl
@[simp] theorem driveLine_txst (s : Shaped.State S) : (driveLine s).txst = s.txst := rfl
@[simp] theorem driveLine_txd (s : Shaped.State S) : (driveLine s).txd = s.txd := rfl
@[simp] theorem driveLine_widx (s : Shaped.State S) : (driveLine s).widx = s.widx := rfl
@[simp] theorem driveLine_bidx (s : Shaped.State S) : (driveLine s).bidx = s.bidx := rfl
@[simp] theorem driveLine_lcnt (s : Shaped.State S) : (driveLine s).lcnt = s.lcnt := rfl
@[simp] theorem driveLine_pcnt (s : Shaped.State S) : (driveLine s).pcnt = s.pcnt := rfl
@[simp] theorem driveLine_dout (s : Shaped.State S) : (driveLine s).dout = lineLevel s := rfl
@[simp] theorem driveLine_rspValid (s : Shaped.State S) : (driveLine s).rspValid = s.rspValid := rfl
@[simp] theorem driveLine_rspData (s : Shaped.State S) : (driveLine s).rspData = s.rspData := rfl
@[simp] theorem driveLine_lt (s : Shaped.State S) : (driveLine s).lt = s.lt := rfl
@[simp] theorem driveLine_ltBefore (s : Shaped.State S) : (driveLine s).ltBefore = s.ltBefore := rfl
@[simp] theorem driveLine_responses (s : Shaped.State S) : (driveLine s).responses = s.responses := rfl
@[simp] theorem driveLine_now (s : Shaped.State S) : (driveLine s).now = s.now := rfl
@[simp] theorem driveLine_cmds (s : Shaped.State S) : (driveLine s).cmds = s.cmds := rfl
@[simp] theorem driveLine_turns (s : Shaped.State S) : (driveLine s).turns = s.turns := rfl

@[simp] theorem clockStep_config (t : S.Stamp) (s : Shaped.State S) : (clockStep t s).config = s.config := rfl
@[simp] theorem clockStep_chA (t : S.Stamp) (s : Shaped.State S) : (clockStep t s).chA = s.chA := rfl
@[simp] theorem clockStep_chB (t : S.Stamp) (s : Shaped.State S) : (clockStep t s).chB = s.chB := rfl
@[simp] theorem clockStep_ill (t : S.Stamp) (s : Shaped.State S) : (clockStep t s).ill = s.ill := rfl
@[simp] theorem clockStep_txst (t : S.Stamp) (s : Shaped.State S) : (clockStep t s).txst = s.txst := rfl
@[simp] theorem clockStep_txd (t : S.Stamp) (s : Shaped.State S) : (clockStep t s).txd = s.txd := rfl
@[simp] theorem clockStep_widx (t : S.Stamp) (s : Shaped.State S) : (clockStep t s).widx = s.widx := rfl
@[simp] theorem clockStep_bidx (t : S.Stamp) (s : Shaped.State S) : (clockStep t s).bidx = s.bidx := rfl
@[simp] theorem clockStep_lcnt (t : S.Stamp) (s : Shaped.State S) : (clockStep t s).lcnt = s.lcnt := rfl
@[simp] theorem clockStep_pcnt (t : S.Stamp) (s : Shaped.State S) : (clockStep t s).pcnt = s.pcnt := rfl
@[simp] theorem clockStep_dout (t : S.Stamp) (s : Shaped.State S) : (clockStep t s).dout = s.dout := rfl
@[simp] theorem clockStep_rspValid (t : S.Stamp) (s : Shaped.State S) : (clockStep t s).rspValid = s.rspValid := rfl
@[simp] theorem clockStep_rspData (t : S.Stamp) (s : Shaped.State S) : (clockStep t s).rspData = s.rspData := rfl
@[simp] theorem clockStep_lt (t : S.Stamp) (s : Shaped.State S) : (clockStep t s).lt = s.lt := rfl
@[simp] theorem clockStep_ltBefore (t : S.Stamp) (s : Shaped.State S) : (clockStep t s).ltBefore = s.ltBefore := rfl
@[simp] theorem clockStep_responses (t : S.Stamp) (s : Shaped.State S) : (clockStep t s).responses = s.responses := rfl
@[simp] theorem clockStep_now (t : S.Stamp) (s : Shaped.State S) : (clockStep t s).now = t := rfl
@[simp] theorem clockStep_cmds (t : S.Stamp) (s : Shaped.State S) : (clockStep t s).cmds = s.cmds := rfl
@[simp] theorem clockStep_turns (t : S.Stamp) (s : Shaped.State S) : (clockStep t s).turns = s.turns := rfl

@[simp] theorem beginCycle_config (io : Shaped.CycleIn S) (s : Shaped.State S) : (beginCycle io s).config = s.config := rfl
@[simp] theorem beginCycle_chA (io : Shaped.CycleIn S) (s : Shaped.State S) : (beginCycle io s).chA = s.chA := rfl
@[simp] theorem beginCycle_chB (io : Shaped.CycleIn S) (s : Shaped.State S) : (beginCycle io s).chB = s.chB := rfl
@[simp] theorem beginCycle_ill (io : Shaped.CycleIn S) (s : Shaped.State S) : (beginCycle io s).ill = s.ill := rfl
@[simp] theorem beginCycle_txst (io : Shaped.CycleIn S) (s : Shaped.State S) : (beginCycle io s).txst = s.txst := rfl
@[simp] theorem beginCycle_txd (io : Shaped.CycleIn S) (s : Shaped.State S) : (beginCycle io s).txd = s.txd := rfl
@[simp] theorem beginCycle_widx (io : Shaped.CycleIn S) (s : Shaped.State S) : (beginCycle io s).widx = s.widx := rfl
@[simp] theorem beginCycle_bidx (io : Shaped.CycleIn S) (s : Shaped.State S) : (beginCycle io s).bidx = s.bidx := rfl
@[simp] theorem beginCycle_lcnt (io : Shaped.CycleIn S) (s : Shaped.State S) : (beginCycle io s).lcnt = s.lcnt := rfl
@[simp] theorem beginCycle_pcnt (io : Shaped.CycleIn S) (s : Shaped.State S) : (beginCycle io s).pcnt = s.pcnt := rfl
@[simp] theorem beginCycle_dout (io : Shaped.CycleIn S) (s : Shaped.State S) : (beginCycle io s).dout = s.dout := rfl
@[simp] theorem beginCycle_rspValid (io : Shaped.CycleIn S) (s : Shaped.State S) : (beginCycle io s).rspValid = false := rfl
@[simp] theorem beginCycle_rspData (io : Shaped.CycleIn S) (s : Shaped.State S) : (beginCycle io s).rspData = s.rspData := rfl
@[simp] theorem beginCycle_lt (io : Shaped.CycleIn S) (s : Shaped.State S) : (beginCycle io s).lt = s.lt := rfl
@[simp] theorem beginCycle_ltBefore (io : Shaped.CycleIn S) (s : Shaped.State S) : (beginCycle io s).ltBefore = s.ltBefore := rfl
@[simp] theorem beginCycle_responses (io : Shaped.CycleIn S) (s : Shaped.State S) : (beginCycle io s).responses = s.responses := rfl
@[simp] theorem beginCycle_now (io : Shaped.CycleIn S) (s : Shaped.State S) : (beginCycle io s).now = io.nowMs := rfl
@[simp] theorem beginCycle_cmds (io : Shaped.CycleIn S) (s : Shaped.State S) : (beginCycle io s).cmds = s.cmds := rfl
@[simp] theorem beginCycle_turns (io : Shaped.CycleIn S) (s : Shaped.State S) : (beginCycle io s).turns = s.turns := rfl

@[simp] theorem setTurns_config (ts : List (Shaped.Turn S)) (s : Shaped.State S) : (setTurns ts s).config = s.config := rfl
@[simp] theorem setTurns_chA (ts : List (Shaped.Turn S)) (s : Shaped.State S) : (setTurns ts s).chA = s.chA := rfl
@[simp] theorem setTurns_chB (ts : List (Shaped.Turn S)) (s : Shaped.State S) : (setTurns ts s).chB = s.chB := rfl
@[simp] theorem setTurns_ill (ts : List (Shaped.Turn S)) (s : Shaped.State S) : (setTurns ts s).ill = s.ill := rfl
@[simp] theorem setTurns_txst (ts : List (Shaped.Turn S)) (s : Shaped.State S) : (setTurns ts s).txst = s.txst := rfl
@[simp] theorem setTurns_txd (ts : List (Shaped.Turn S)) (s : Shaped.State S) : (setTurns ts s).txd = s.txd := rfl
@[simp] theorem setTurns_widx (ts : List (Shaped.Turn S)) (s : Shaped.State S) : (setTurns ts s).widx = s.widx := rfl
@[simp] theorem setTurns_bidx (ts : List (Shaped.Turn S)) (s : Shaped.State S) : (setTurns ts s).bidx = s.bidx := rfl
@[simp] theorem setTurns_lcnt (ts : List (Shaped.Turn S)) (s : Shaped.State S) : (setTurns ts s).lcnt = s.lcnt := rfl
@[simp] theorem setTurns_pcnt (ts : List (Shaped.Turn S)) (s : Shaped.State S) : (setTurns ts s).pcnt = s.pcnt := rfl
@[simp] theorem setTurns_dout (ts : List (Shaped.Turn S)) (s : Shaped.State S) : (setTurns ts s).dout = s.dout := rfl
@[simp] theorem setTurns_rspValid (ts : List (Shaped.Turn S)) (s : Shaped.State S) : (setTurns ts s).rspValid = s.rspValid := rfl
@[simp] theorem setTurns_rspData (ts : List (Shaped.Turn S)) (s : Shaped.State S) : (setTurns ts s).rspData = s.rspData := rfl
@[simp] theorem setTurns_lt (ts : List (Shaped.Turn S)) (s : Shaped.State S) : (setTurns ts s).lt = s.lt := rfl
@[simp] theorem setTurns_ltBefore (ts : List (Shaped.Turn S)) (s : Shaped.State S) : (setTurns ts s).ltBefore = s.ltBefore := rfl
@[simp] theorem setTurns_responses (ts : List (Shaped.Turn S)) (s : Shaped.State S) : (setTurns ts s).responses = s.responses := rfl
@[simp] theorem setTurns_now (ts : List (Shaped.Turn S)) (s : Shaped.State S) : (setTurns ts s).now = s.now := rfl
@[simp] theorem setTurns_cmds (ts : List (Shaped.Turn S)) (s : Shaped.State S) : (setTurns ts s).cmds = s.cmds := rfl
@[simp] theorem setTurns_turns (ts : List (Shaped.Turn S)) (s : Shaped.State S) : (setTurns ts s).turns = ts := rfl

end Sys2Proof.Machine
end

