-- ==== Sys2Proof/Laws/Ops.lean ====
section
/-! SUPPORT. What the shared operations do: the channel accessors, the edge step, the sampling, the outcomes. -/

namespace Sys2Proof.Machine

variable {S : Config.Shape}

@[simp] theorem chan_setChan_same (s : Shaped.State S) (b : Button) (c : Shaped.Channel S) : (s.setChan b c).chan b = c := by
  cases b <;> rfl

theorem chan_setChan_other (s : Shaped.State S) {b b' : Button} (c : Shaped.Channel S) (h : b' ≠ b) :
    (s.setChan b c).chan b' = s.chan b' := by
  cases b <;> cases b' <;> first | rfl | exact absurd rfl h

@[simp] theorem setChan_chan (s : Shaped.State S) (b : Button) : s.setChan b (s.chan b) = s := by cases b <;> rfl

theorem setChan_comm (s : Shaped.State S) (c c' : Shaped.Channel S) :
    (s.setChan .A c).setChan .B c' = (s.setChan .B c').setChan .A c := rfl

@[simp] theorem chan_respond (v : S.Rsp) (s : Shaped.State S) (b : Button) : (respond v s).chan b = s.chan b := by
  cases b <;> rfl

@[simp] theorem chan_setTurns (ts : List (Shaped.Turn S)) (s : Shaped.State S) (b : Button) : (setTurns ts s).chan b = s.chan b := by
  cases b <;> rfl

@[simp] theorem chan_beginCycle (io : Shaped.CycleIn S) (s : Shaped.State S) (b : Button) : (beginCycle io s).chan b = s.chan b := by
  cases b <;> rfl

@[simp] theorem andThen_next (s : Shaped.State S) (f : Shaped.State S → Shaped.State S) : andThen (.next s) f = .next (f s) := rfl

/-- An outcome that goes on after `andThen` went on before it. -/
theorem andThen_eq_next {o : Host.Outcome (Shaped.State S) Fault Refusal} {f : Shaped.State S → Shaped.State S} {t : Shaped.State S}
    (h : andThen o f = .next t) : ∃ s, o = .next s ∧ t = f s := by
  cases o with
  | next s => exact ⟨s, rfl, by simpa [andThen] using h.symm⟩
  | fault r => cases r
  | refused r => simp [andThen] at h

/-- The debounce test of a channel that the shape has, as a comparison of numbers (R54). -/
theorem accepts_iff_of_has (s : Shaped.State S) (b : Button) (t : S.Stamp) (hb : hasChannel S b = true) :
    accepts s b t = true ↔ s.config.debounceMs < (t - (s.chan b).ts).toNat := by
  unfold accepts
  rw [hb, Bool.true_and]
  exact decide_eq_true_iff

/-- The debounce test as a comparison of numbers (R54). -/
theorem accepts_iff (s : State) (b : Button) (t : Stamp) :
    accepts s b t = true ↔ s.config.debounceMs < (t - (s.chan b).ts).toNat :=
  accepts_iff_of_has s b t (hasChannel_reference b)

@[simp] theorem accepts_setTurns (ts : List (Shaped.Turn S)) (s : Shaped.State S) (b : Button) (t : S.Stamp) :
    accepts (setTurns ts s) b t = accepts s b t := by cases b <;> rfl

@[simp] theorem accepts_beginCycle (io : Shaped.CycleIn S) (s : Shaped.State S) (b : Button) (t : S.Stamp) :
    accepts (beginCycle io s) b t = accepts s b t := by cases b <;> rfl

/-- Everything an edge step can do: write PEND[b] and TS[b] together, or nothing (R54). -/
theorem edgeFrom_cases (s0 : Shaped.State S) (b : Button) (t : S.Stamp) (s : Shaped.State S) :
    (accepts s0 b t = true ∧ edgeFrom s0 b t s = s.setChan b ((s.chan b).latchEdge t)) ∨
    (accepts s0 b t = false ∧ edgeFrom s0 b t s = s) := by
  unfold edgeFrom
  cases accepts s0 b t <;> simp

/-- Everything a channel's edge detector does to the state in one cycle (R53): an accepted edge, or nothing. -/
theorem edgeInCycle_cases (s0 : Shaped.State S) (b : Button) (t : S.Stamp) (s : Shaped.State S) :
    (((s0.chan b).falling && accepts s0 b t) = true ∧
      edgeInCycle s0 b t s = s.setChan b ((s.chan b).latchEdge t)) ∨
    (((s0.chan b).falling && accepts s0 b t) = false ∧ edgeInCycle s0 b t s = s) := by
  unfold edgeInCycle edgeFrom
  cases (s0.chan b).falling <;> cases accepts s0 b t <;> simp

/-- The debouncer's part of a cycle touches the channels only. -/
theorem debounceInCycle_frame (io : Shaped.CycleIn S) (s0 s : Shaped.State S) :
    ∃ a b, debounceInCycle io s0 s = { s with chA := a, chB := b } := by
  unfold debounceInCycle sampleLine
  obtain ⟨_, h⟩ | ⟨_, h⟩ := edgeInCycle_cases s0 .B io.nowMs (edgeInCycle s0 .A io.nowMs s) <;> rw [h] <;>
    obtain ⟨_, h⟩ | ⟨_, h⟩ := edgeInCycle_cases s0 .A io.nowMs s <;> rw [h] <;> exact ⟨_, _, rfl⟩

@[simp] theorem debounceInCycle_config (io : Shaped.CycleIn S) (s0 s : Shaped.State S) : (debounceInCycle io s0 s).config = s.config := by
  obtain ⟨_, _, h⟩ := debounceInCycle_frame io s0 s; rw [h]
@[simp] theorem debounceInCycle_ill (io : Shaped.CycleIn S) (s0 s : Shaped.State S) : (debounceInCycle io s0 s).ill = s.ill := by
  obtain ⟨_, _, h⟩ := debounceInCycle_frame io s0 s; rw [h]
@[simp] theorem debounceInCycle_txst (io : Shaped.CycleIn S) (s0 s : Shaped.State S) : (debounceInCycle io s0 s).txst = s.txst := by
  obtain ⟨_, _, h⟩ := debounceInCycle_frame io s0 s; rw [h]
@[simp] theorem debounceInCycle_txd (io : Shaped.CycleIn S) (s0 s : Shaped.State S) : (debounceInCycle io s0 s).txd = s.txd := by
  obtain ⟨_, _, h⟩ := debounceInCycle_frame io s0 s; rw [h]
@[simp] theorem debounceInCycle_widx (io : Shaped.CycleIn S) (s0 s : Shaped.State S) : (debounceInCycle io s0 s).widx = s.widx := by
  obtain ⟨_, _, h⟩ := debounceInCycle_frame io s0 s; rw [h]
@[simp] theorem debounceInCycle_bidx (io : Shaped.CycleIn S) (s0 s : Shaped.State S) : (debounceInCycle io s0 s).bidx = s.bidx := by
  obtain ⟨_, _, h⟩ := debounceInCycle_frame io s0 s; rw [h]
@[simp] theorem debounceInCycle_lcnt (io : Shaped.CycleIn S) (s0 s : Shaped.State S) : (debounceInCycle io s0 s).lcnt = s.lcnt := by
  obtain ⟨_, _, h⟩ := debounceInCycle_frame io s0 s; rw [h]
@[simp] theorem debounceInCycle_pcnt (io : Shaped.CycleIn S) (s0 s : Shaped.State S) : (debounceInCycle io s0 s).pcnt = s.pcnt := by
  obtain ⟨_, _, h⟩ := debounceInCycle_frame io s0 s; rw [h]
@[simp] theorem debounceInCycle_dout (io : Shaped.CycleIn S) (s0 s : Shaped.State S) : (debounceInCycle io s0 s).dout = s.dout := by
  obtain ⟨_, _, h⟩ := debounceInCycle_frame io s0 s; rw [h]
@[simp] theorem debounceInCycle_rspValid (io : Shaped.CycleIn S) (s0 s : Shaped.State S) : (debounceInCycle io s0 s).rspValid = s.rspValid := by
  obtain ⟨_, _, h⟩ := debounceInCycle_frame io s0 s; rw [h]
@[simp] theorem debounceInCycle_rspData (io : Shaped.CycleIn S) (s0 s : Shaped.State S) : (debounceInCycle io s0 s).rspData = s.rspData := by
  obtain ⟨_, _, h⟩ := debounceInCycle_frame io s0 s; rw [h]
@[simp] theorem debounceInCycle_lt (io : Shaped.CycleIn S) (s0 s : Shaped.State S) : (debounceInCycle io s0 s).lt = s.lt := by
  obtain ⟨_, _, h⟩ := debounceInCycle_frame io s0 s; rw [h]
@[simp] theorem debounceInCycle_ltBefore (io : Shaped.CycleIn S) (s0 s : Shaped.State S) : (debounceInCycle io s0 s).ltBefore = s.ltBefore := by
  obtain ⟨_, _, h⟩ := debounceInCycle_frame io s0 s; rw [h]
@[simp] theorem debounceInCycle_responses (io : Shaped.CycleIn S) (s0 s : Shaped.State S) : (debounceInCycle io s0 s).responses = s.responses := by
  obtain ⟨_, _, h⟩ := debounceInCycle_frame io s0 s; rw [h]
@[simp] theorem debounceInCycle_now (io : Shaped.CycleIn S) (s0 s : Shaped.State S) : (debounceInCycle io s0 s).now = s.now := by
  obtain ⟨_, _, h⟩ := debounceInCycle_frame io s0 s; rw [h]
@[simp] theorem debounceInCycle_cmds (io : Shaped.CycleIn S) (s0 s : Shaped.State S) : (debounceInCycle io s0 s).cmds = s.cmds := by
  obtain ⟨_, _, h⟩ := debounceInCycle_frame io s0 s; rw [h]
@[simp] theorem debounceInCycle_turns (io : Shaped.CycleIn S) (s0 s : Shaped.State S) : (debounceInCycle io s0 s).turns = s.turns := by
  obtain ⟨_, _, h⟩ := debounceInCycle_frame io s0 s; rw [h]

/-- What a channel that the shape has holds after the debouncer's part of a cycle: an edge accepted on the state at its
start (R26, R54) sets PEND and writes TS, and the line is sampled (R52). -/
theorem debounceInCycle_chan_of_has (io : Shaped.CycleIn S) (s0 s : Shaped.State S) (b : Button)
    (hb : hasChannel S b = true) :
    (debounceInCycle io s0 s).chan b = Shaped.Channel.sample
      (if ((s0.chan b).falling && accepts s0 b io.nowMs) = true then (s.chan b).latchEdge io.nowMs else s.chan b)
      (io.btnN b) := by
  unfold debounceInCycle sampleLine
  obtain ⟨hB, h⟩ | ⟨hB, h⟩ := edgeInCycle_cases s0 .B io.nowMs (edgeInCycle s0 .A io.nowMs s) <;> rw [h] <;>
    obtain ⟨hA, h⟩ | ⟨hA, h⟩ := edgeInCycle_cases s0 .A io.nowMs s <;> rw [h] <;> cases b <;>
      simp only [hA, hB, hb, if_true, Bool.false_eq_true, if_false] <;> rfl

/-- What a channel holds after the debouncer's part of a cycle (R26, R52, R54). -/
theorem debounceInCycle_chan (io : CycleIn) (s0 s : State) (b : Button) :
    (debounceInCycle io s0 s).chan b = Shaped.Channel.sample
      (if ((s0.chan b).falling && accepts s0 b io.nowMs) = true then (s.chan b).latchEdge io.nowMs else s.chan b)
      (io.btnN b) :=
  debounceInCycle_chan_of_has io s0 s b (hasChannel_reference b)

@[simp] theorem latchEdge_pend (c : Shaped.Channel S) (t : S.Stamp) : (c.latchEdge t).pend = true := rfl
@[simp] theorem latchEdge_ts (c : Shaped.Channel S) (t : S.Stamp) : (c.latchEdge t).ts = t := rfl
@[simp] theorem latchEdge_sync (c : Shaped.Channel S) (t : S.Stamp) : (c.latchEdge t).sync = c.sync := rfl
@[simp] theorem latchEdge_lvl (c : Shaped.Channel S) (t : S.Stamp) : (c.latchEdge t).lvl = c.lvl := rfl
@[simp] theorem withPend_pend (c : Shaped.Channel S) (v : Bool) : (c.withPend v).pend = v := rfl
@[simp] theorem withPend_ts (c : Shaped.Channel S) (v : Bool) : (c.withPend v).ts = c.ts := rfl
@[simp] theorem withPend_sync (c : Shaped.Channel S) (v : Bool) : (c.withPend v).sync = c.sync := rfl
@[simp] theorem withPend_lvl (c : Shaped.Channel S) (v : Bool) : (c.withPend v).lvl = c.lvl := rfl

/-- The sampling leaves PEND and TS alone (R52). -/
@[simp] theorem sample_pend (c : Shaped.Channel S) (pin : Bool) : (c.sample pin).pend = c.pend := rfl
@[simp] theorem sample_ts (c : Shaped.Channel S) (pin : Bool) : (c.sample pin).ts = c.ts := rfl
@[simp] theorem sample_lvl (c : Shaped.Channel S) (pin : Bool) : (c.sample pin).lvl = c.syncOut := rfl

/-- In the reference shape the dispatch for any shape is `exec`. -/
@[simp] theorem execOf_eq_exec (i : Instr) (s : State) : execOf i s = exec i s := by cases i <;> rfl

/-- In the reference shape the port carries the word of R38 as it is. -/
@[simp] theorem commandWord_reference (w : Word) : commandWord (S := referenceShape) w = w := BitVec.setWidth_eq w

/-- In the reference shape a percentage field is the operand as it is (R41). -/
@[simp] theorem percentage_reference (p : Pct) : percentage (S := referenceShape) p = p := BitVec.setWidth_eq p

/-- In the reference shape three device values fill a packed word (R69). -/
theorem packColour_reference (r : Config.RoundHalf) (pr pg pb : Pct) :
    packColour referenceShape r pr pg pb = conv referenceShape r pg ++ conv referenceShape r pr ++ conv referenceShape r pb :=
  BitVec.setWidth_eq _

/-- In the reference shape a time stamp is as wide as a response (R57). -/
@[simp] theorem zextRsp_stamp (t : Stamp) : zextRsp (S := referenceShape) t = t := BitVec.setWidth_eq t

end Sys2Proof.Machine
end

