-- ==== Sys2Proof/Laws/PerInstr.lean ====
section
/-! SUPPORT. The families of statements made for every instruction, one lemma per constructor. -/

namespace Sys2Proof.Laws.LegalEncoding

/-- The word of an instruction is a legal command word of R39: its row matches it. -/
def Statement (i : Instr) : Prop := legalWord (encode i) = true

theorem nop : Statement .nop := by unfold Statement; decide

theorem rdstat : Statement .rdstat := by unfold Statement; decide

theorem ack (c : Button) : Statement (.ack c) := by unfold Statement; cases c <;> decide

theorem rdts (c : Button) : Statement (.rdts c) := by unfold Statement; cases c <;> decide

theorem encode (pr pg pb : Pct) : Statement (.encode pr pg pb) := by
  have hop : opcodeOf (Sys2Proof.encode (.encode pr pg pb)) = 0x4 := by
    apply BitVec.eq_of_getLsbD_eq
    intro i hi
    interval_cases i <;> simp [opcodeOf, Sys2Proof.encode]
  have hmask : Sys2Proof.encode (.encode pr pg pb) &&& 0xFFE00000 = 0x40000000 := by
    apply BitVec.eq_of_getLsbD_eq
    intro i hi
    interval_cases i <;> simp [Sys2Proof.encode]
  simp [Statement, legalWord, opcodeAssigned, reservedBitsZero, opcodeRows, OpcodeRow.accepts, hop]
  exact hmask

theorem render (d : BitVec 8) : Statement (.render d) := by
  unfold Statement
  revert d
  decide

end Sys2Proof.Laws.LegalEncoding
end

