-- ==== Sys2Proof/Laws/SerialEngine.lean ====
section
/-! SUPPORT. What the SPE does: its steps case by case, and the frame as the list of its bits. -/

namespace Sys2Proof.Machine

variable {S : Config.Shape}

/-- Everything the advance after a bit can do (R75). -/
theorem advance_cases (s : Shaped.State S) :
    (∃ h : s.bidx.val - 1 < S.wordW, 0 < s.bidx.val ∧ advance s = { s with bidx := ⟨s.bidx.val - 1, h⟩ }) ∨
    (∃ h : s.widx.val + 1 < S.numPixels, s.bidx.val = 0 ∧
      advance s = { s with bidx := topBit S, widx := ⟨s.widx.val + 1, h⟩ }) ∨
    (s.bidx.val = 0 ∧ s.widx.val = S.numPixels - 1 ∧ advance s = { s with txst := .latch, lcnt := gapCycles s.config }) := by
  unfold advance
  by_cases hb : 0 < s.bidx.val
  · exact .inl ⟨by omega, hb, by rw [if_pos hb]⟩
  · by_cases hw : s.widx.val < S.numPixels - 1
    · exact .inr (.inl ⟨by omega, by omega, by rw [if_neg hb, dif_pos hw]⟩)
    · exact .inr (.inr ⟨by omega, by omega, by rw [if_neg hb, dif_neg hw]⟩)

/-- Everything one SPE step can do (R74 to R77). -/
theorem speStep_cases (s : Shaped.State S) :
    (s.txst = .idle ∧ speStep s = s) ∨ (s.txst = .shift ∧ speStep s = speShift s) ∨
    (s.txst = .latch ∧ speStep s = speLatch s) := by
  unfold speStep
  cases h : s.txst <;> simp

/-- Everything the SPE can do in one clock cycle. -/
theorem speInCycle_cases (s0 s : Shaped.State S) :
    speInCycle s0 s = s ∨ (s0.txst = .shift ∧ s.pcnt + 1 < bitCycles s.config ∧ speInCycle s0 s = { s with pcnt := s.pcnt + 1 }) ∨
    (s0.txst = .shift ∧ speInCycle s0 s = speShift s) ∨ (s0.txst = .latch ∧ s.lcnt = 0 ∧ speInCycle s0 s = speLatch s) ∨
    (s0.txst = .latch ∧ s.lcnt ≠ 0 ∧ speInCycle s0 s = { s with lcnt := s.lcnt - 1 }) := by
  unfold speInCycle
  cases h : s0.txst
  · exact .inl rfl
  · by_cases hp : s.pcnt + 1 < bitCycles s.config <;> simp [hp]
  · by_cases hl : s.lcnt = 0 <;> simp [hl]

/-- The frame of a SHIFT step: it writes the trace, TXST, WIDX, BIDX and the line's own counters, nothing else (R74,
R75). -/
theorem speShift_frame (s : Shaped.State S) : ∃ st w b l, speShift s =
    { s with lt := s.lt ++ [.bit (currentBit s)], txst := st, widx := w, bidx := b, lcnt := l, pcnt := 0, dout := false } := by
  unfold speShift
  obtain ⟨_, _, h⟩ | ⟨_, _, h⟩ | ⟨_, _, h⟩ := advance_cases (emit (.bit (currentBit s)) s) <;>
    exact ⟨_, _, _, _, by rw [h]; rfl⟩

@[simp] theorem speShift_config (s : Shaped.State S) : (speShift s).config = s.config := by
  obtain ⟨_, _, _, _, h⟩ := speShift_frame s; rw [h]
@[simp] theorem speShift_chA (s : Shaped.State S) : (speShift s).chA = s.chA := by
  obtain ⟨_, _, _, _, h⟩ := speShift_frame s; rw [h]
@[simp] theorem speShift_chB (s : Shaped.State S) : (speShift s).chB = s.chB := by
  obtain ⟨_, _, _, _, h⟩ := speShift_frame s; rw [h]
@[simp] theorem speShift_ill (s : Shaped.State S) : (speShift s).ill = s.ill := by
  obtain ⟨_, _, _, _, h⟩ := speShift_frame s; rw [h]
@[simp] theorem speShift_txd (s : Shaped.State S) : (speShift s).txd = s.txd := by
  obtain ⟨_, _, _, _, h⟩ := speShift_frame s; rw [h]
@[simp] theorem speShift_rspValid (s : Shaped.State S) : (speShift s).rspValid = s.rspValid := by
  obtain ⟨_, _, _, _, h⟩ := speShift_frame s; rw [h]
@[simp] theorem speShift_rspData (s : Shaped.State S) : (speShift s).rspData = s.rspData := by
  obtain ⟨_, _, _, _, h⟩ := speShift_frame s; rw [h]
@[simp] theorem speShift_ltBefore (s : Shaped.State S) : (speShift s).ltBefore = s.ltBefore := by
  obtain ⟨_, _, _, _, h⟩ := speShift_frame s; rw [h]
@[simp] theorem speShift_responses (s : Shaped.State S) : (speShift s).responses = s.responses := by
  obtain ⟨_, _, _, _, h⟩ := speShift_frame s; rw [h]
@[simp] theorem speShift_now (s : Shaped.State S) : (speShift s).now = s.now := by
  obtain ⟨_, _, _, _, h⟩ := speShift_frame s; rw [h]
@[simp] theorem speShift_cmds (s : Shaped.State S) : (speShift s).cmds = s.cmds := by
  obtain ⟨_, _, _, _, h⟩ := speShift_frame s; rw [h]
@[simp] theorem speShift_turns (s : Shaped.State S) : (speShift s).turns = s.turns := by
  obtain ⟨_, _, _, _, h⟩ := speShift_frame s; rw [h]
@[simp] theorem speShift_lt (s : Shaped.State S) : (speShift s).lt = s.lt ++ [.bit (currentBit s)] := by
  obtain ⟨_, _, _, _, h⟩ := speShift_frame s; rw [h]
@[simp] theorem speShift_pcnt (s : Shaped.State S) : (speShift s).pcnt = 0 := rfl
@[simp] theorem speShift_dout (s : Shaped.State S) : (speShift s).dout = false := rfl

-- The SPE in one clock cycle touches only its own registers and the trace.
@[simp] theorem speInCycle_config (s0 s : Shaped.State S) : (speInCycle s0 s).config = s.config := by
  obtain e | ⟨_, _, e⟩ | ⟨_, e⟩ | ⟨_, _, e⟩ | ⟨_, _, e⟩ := speInCycle_cases s0 s <;> rw [e] <;> simp
@[simp] theorem speInCycle_chA (s0 s : Shaped.State S) : (speInCycle s0 s).chA = s.chA := by
  obtain e | ⟨_, _, e⟩ | ⟨_, e⟩ | ⟨_, _, e⟩ | ⟨_, _, e⟩ := speInCycle_cases s0 s <;> rw [e] <;> simp
@[simp] theorem speInCycle_chB (s0 s : Shaped.State S) : (speInCycle s0 s).chB = s.chB := by
  obtain e | ⟨_, _, e⟩ | ⟨_, e⟩ | ⟨_, _, e⟩ | ⟨_, _, e⟩ := speInCycle_cases s0 s <;> rw [e] <;> simp
@[simp] theorem speInCycle_ill (s0 s : Shaped.State S) : (speInCycle s0 s).ill = s.ill := by
  obtain e | ⟨_, _, e⟩ | ⟨_, e⟩ | ⟨_, _, e⟩ | ⟨_, _, e⟩ := speInCycle_cases s0 s <;> rw [e] <;> simp
@[simp] theorem speInCycle_txd (s0 s : Shaped.State S) : (speInCycle s0 s).txd = s.txd := by
  obtain e | ⟨_, _, e⟩ | ⟨_, e⟩ | ⟨_, _, e⟩ | ⟨_, _, e⟩ := speInCycle_cases s0 s <;> rw [e] <;> simp
@[simp] theorem speInCycle_rspValid (s0 s : Shaped.State S) : (speInCycle s0 s).rspValid = s.rspValid := by
  obtain e | ⟨_, _, e⟩ | ⟨_, e⟩ | ⟨_, _, e⟩ | ⟨_, _, e⟩ := speInCycle_cases s0 s <;> rw [e] <;> simp
@[simp] theorem speInCycle_rspData (s0 s : Shaped.State S) : (speInCycle s0 s).rspData = s.rspData := by
  obtain e | ⟨_, _, e⟩ | ⟨_, e⟩ | ⟨_, _, e⟩ | ⟨_, _, e⟩ := speInCycle_cases s0 s <;> rw [e] <;> simp
@[simp] theorem speInCycle_ltBefore (s0 s : Shaped.State S) : (speInCycle s0 s).ltBefore = s.ltBefore := by
  obtain e | ⟨_, _, e⟩ | ⟨_, e⟩ | ⟨_, _, e⟩ | ⟨_, _, e⟩ := speInCycle_cases s0 s <;> rw [e] <;> simp
@[simp] theorem speInCycle_responses (s0 s : Shaped.State S) : (speInCycle s0 s).responses = s.responses := by
  obtain e | ⟨_, _, e⟩ | ⟨_, e⟩ | ⟨_, _, e⟩ | ⟨_, _, e⟩ := speInCycle_cases s0 s <;> rw [e] <;> simp
@[simp] theorem speInCycle_now (s0 s : Shaped.State S) : (speInCycle s0 s).now = s.now := by
  obtain e | ⟨_, _, e⟩ | ⟨_, e⟩ | ⟨_, _, e⟩ | ⟨_, _, e⟩ := speInCycle_cases s0 s <;> rw [e] <;> simp
@[simp] theorem speInCycle_cmds (s0 s : Shaped.State S) : (speInCycle s0 s).cmds = s.cmds := by
  obtain e | ⟨_, _, e⟩ | ⟨_, e⟩ | ⟨_, _, e⟩ | ⟨_, _, e⟩ := speInCycle_cases s0 s <;> rw [e] <;> simp
@[simp] theorem speInCycle_turns (s0 s : Shaped.State S) : (speInCycle s0 s).turns = s.turns := by
  obtain e | ⟨_, _, e⟩ | ⟨_, e⟩ | ⟨_, _, e⟩ | ⟨_, _, e⟩ := speInCycle_cases s0 s <;> rw [e] <;> simp

/-- Where a SHIFT step leads (R75): one bit further in the frame, or, after its last bit, to LATCH. -/
theorem speShift_progress (s : Shaped.State S) :
    ((speShift s).txst = s.txst ∧ (speShift s).lcnt = s.lcnt ∧ sentBits (speShift s) = sentBits s + 1) ∨
    (sentBits s + 1 = S.wordW * S.numPixels ∧ (speShift s).txst = .latch ∧
      (speShift s).lcnt = gapCycles s.config) := by
  have hb := s.bidx.isLt
  have hw := s.widx.isLt
  unfold speShift
  obtain ⟨_, h0, h⟩ | ⟨_, h0, h⟩ | ⟨h0, h1, h⟩ := advance_cases (emit (.bit (currentBit s)) s) <;> rw [h] <;>
    simp only [emit_bidx] at h0
  · refine .inl ⟨rfl, rfl, ?_⟩
    show S.wordW * s.widx.val + (S.wordW - 1 - (s.bidx.val - 1)) = S.wordW * s.widx.val + (S.wordW - 1 - s.bidx.val) + 1
    omega
  · refine .inl ⟨rfl, rfl, ?_⟩
    show S.wordW * (s.widx.val + 1) + (S.wordW - 1 - (S.wordW - 1)) = S.wordW * s.widx.val + (S.wordW - 1 - s.bidx.val) + 1
    rw [Nat.mul_succ]
    omega
  · refine .inr ⟨?_, rfl, rfl⟩
    have h1 : S.numPixels = s.widx.val + 1 := by simp only [emit_widx] at h1; omega
    have h2 : S.wordW * S.numPixels = S.wordW * s.widx.val + S.wordW := (congrArg _ h1).trans (Nat.mul_succ _ _)
    show S.wordW * s.widx.val + (S.wordW - 1 - s.bidx.val) + 1 = S.wordW * S.numPixels
    omega

/-- A frame has WORD_W times NUM_PIXELS bits: in the reference shape 600, 25 words of 24 (R75). -/
theorem frameBits_length (P : Config.Params S) (d : Fin S.nGlyph) : (frameBits P d).length = S.wordW * S.numPixels := by
  simp [frameBits, wordBits, List.length_flatMap, Nat.mul_comm]

/-- A frame has one symbol more than bits: in the reference shape 601 (R78). -/
theorem frame_length (P : Config.Params S) (d : Fin S.nGlyph) : (frame P d).length = S.wordW * S.numPixels + 1 := by
  simp [frame, frameBits_length]

/-- The pieces of a list of pieces of one length, by position. -/
theorem getElem?_flatMap_const {α β : Type} (f : α → List β) (n : Nat) (hf : ∀ a, (f a).length = n) (j : Nat) (hj : j < n) :
    ∀ (l : List α) (i : Nat), (l.flatMap f)[n * i + j]? = l[i]?.bind fun a => (f a)[j]? := by
  intro l
  induction l with
  | nil => simp
  | cons a l ih =>
    intro i
    cases i with
    | zero => simp [List.getElem?_append, hf, hj]
    | succ i =>
      have h : ¬ n * (i + 1) + j < n := by
        rw [Nat.mul_succ]; omega
      have h' : n * (i + 1) + j - n = n * i + j := by
        rw [Nat.mul_succ]; omega
      simp [List.getElem?_append, hf, h, h', ih]

/-- The bits of a word by position, the most significant first (R31). -/
theorem wordBits_getElem? (v : S.Packed) (b : Nat) (hb : b < S.wordW) :
    (wordBits v)[S.wordW - 1 - b]? = some (.bit (v.getLsbD b)) := by
  have h : (List.range S.wordW).reverse[S.wordW - 1 - b]? = some b := by
    rw [List.getElem?_reverse (by rw [List.length_range]; omega), List.length_range,
      List.getElem?_range (by omega)]
    congr 1
    omega
  simp only [wordBits, List.getElem?_map, h, Option.map_some]

/-- The bit of a frame at a position: bit BIDX of word WIDX (R74, R78). -/
theorem frameBits_getElem? (P : Config.Params S) (d : Fin S.nGlyph) (w : Fin S.numPixels) (b : Fin S.wordW) :
    (frameBits P d)[S.wordW * w + (S.wordW - 1 - b)]? = some (.bit ((frameWord P d w).getLsbD b)) := by
  have hb := b.isLt
  unfold frameBits
  rw [getElem?_flatMap_const (fun i => wordBits (frameWord P d i)) S.wordW (by intro a; simp [wordBits])
    (S.wordW - 1 - b) (by omega)]
  rw [List.getElem?_eq_getElem (by rw [List.length_finRange]; exact w.isLt)]
  simpa only [List.getElem_finRange, Option.bind_some, Fin.cast_mk, Fin.eta] using wordBits_getElem? (frameWord P d w) b hb

/-- The bits sent, and the one a SHIFT step sends, are the next longer prefix of the frame (R78). -/
theorem frameBits_take_succ (s : Shaped.State S) :
    (frameBits s.config s.txd).take (sentBits s) ++ [.bit (currentBit s)] = (frameBits s.config s.txd).take (sentBits s + 1) := by
  rw [List.take_add_one, sentBits, frameBits_getElem? s.config s.txd s.widx s.bidx]
  rfl

end Sys2Proof.Machine
end

