-- ==== Sys2Proof/Laws/Step.lean ====
section
/-! SUPPORT. What a command, a HOST step, a clock cycle and a step of the machine can do, each said once. -/

namespace Sys2Proof.Machine

variable {S : Config.Shape}

/-- Everything a command can do, in an instance of any shape: five of them respond and go on, an in-range RENDER starts a
frame or is held. -/
theorem execOf_cases (i : Instr) (s : Shaped.State S) :
    (i = .nop ∧ execOf i s = .next (respond 0 s)) ∨
    (i = .rdstat ∧ execOf i s = .next (respond (statusWord s) s)) ∨
    (∃ c, i = .ack c ∧ execOf i s = .next (respond (zextRsp (bitOf (s.chan c).pend)) (setPend c false s))) ∨
    (∃ c, i = .rdts c ∧ execOf i s = .next (respond (zextRsp (s.chan c).ts) s)) ∨
    (∃ pr pg pb, i = .encode pr pg pb ∧ execOf i s = .next (respond
      (zextRsp (packColour S s.config.roundHalf (percentage pr) (percentage pg) (percentage pb))) s)) ∨
    (∃ d, i = .render d ∧ digitInRange (S := S) d = none ∧ execOf i s = .next (respond 0 s)) ∨
    (∃ d g, i = .render d ∧ digitInRange (S := S) d = some g ∧ s.txst ≠ .idle ∧ execOf i s = .next s) ∨
    (∃ d g, i = .render d ∧ digitInRange d = some g ∧ s.txst = .idle ∧
      execOf i s = .next (respond 1 (startFrame g s))) := by
  cases i with
  | nop => exact .inl ⟨rfl, rfl⟩
  | rdstat => exact .inr (.inl ⟨rfl, rfl⟩)
  | ack c => exact .inr (.inr (.inl ⟨c, rfl, rfl⟩))
  | rdts c => exact .inr (.inr (.inr (.inl ⟨c, rfl, rfl⟩)))
  | encode pr pg pb => exact .inr (.inr (.inr (.inr (.inl ⟨pr, pg, pb, rfl, rfl⟩))))
  | render d =>
    simp only [execOf, execRender]
    cases hd : digitInRange (S := S) d with
    | none => simp [hd]
    | some g => by_cases hs : s.txst = .idle <;> simp [hd, hs, Shaped.State.busy, hold]

/-- Everything a command can do. -/
theorem exec_cases (i : Instr) (s : State) :
    (i = .nop ∧ exec i s = .next (respond 0 s)) ∨
    (i = .rdstat ∧ exec i s = .next (respond (statusWord s) s)) ∨
    (∃ c, i = .ack c ∧ exec i s = .next (respond (zextRsp (bitOf (s.chan c).pend)) (setPend c false s))) ∨
    (∃ c, i = .rdts c ∧ exec i s = .next (respond (s.chan c).ts s)) ∨
    (∃ pr pg pb, i = .encode pr pg pb ∧
      exec i s = .next (respond (zextRsp (packColour referenceShape s.config.roundHalf pr pg pb)) s)) ∨
    (∃ d, i = .render d ∧ digitInRange (S := referenceShape) d = none ∧ exec i s = .next (respond 0 s)) ∨
    (∃ d g, i = .render d ∧ digitInRange (S := referenceShape) d = some g ∧ s.txst ≠ .idle ∧ exec i s = .next s) ∨
    (∃ d g, i = .render d ∧ digitInRange d = some g ∧ s.txst = .idle ∧
      exec i s = .next (respond 1 (startFrame g s))) := by
  simpa only [execOf_eq_exec, zextRsp_stamp, percentage_reference] using execOf_cases i s

/-- A HOST step on a legal word runs its instruction (R48). -/
theorem hostStep_legal {s : State} {w : Word} {rest : List Word} {i : Instr} (hc : s.cmds = w :: rest)
    (hd : decode w = .ok i) : hostStep s = exec i s := by
  simp [hostStep, hc, hd]

/-- A HOST step on an illegal word takes the exception (R48, R83). -/
theorem hostStep_illegal {s : State} {w : Word} {rest : List Word} {r : IllegalReason} (hc : s.cmds = w :: rest)
    (hd : decode w = .error r) : hostStep s = .next (raiseIllegalCommand s) := by
  simp [hostStep, hc, hd]

/-- Everything a HOST step can do, in an instance of any shape (R48). -/
theorem hostStep_cases_of (s : Shaped.State S) :
    (s.cmds = [] ∧ hostStep s = .next s) ∨
    (∃ w rest r, s.cmds = w :: rest ∧ decode (commandWord w) = .error r ∧ hostStep s = .next (raiseIllegalCommand s)) ∨
    (∃ w rest i, s.cmds = w :: rest ∧ decode (commandWord w) = .ok i ∧ hostStep s = execOf i s) := by
  unfold hostStep
  cases hc : s.cmds with
  | nil => simp
  | cons w rest => cases hd : decode (commandWord w) <;> simp [hd]

/-- Everything a HOST step can do (R48): no word presented, the exception, or the command's meaning. -/
theorem hostStep_cases (s : State) :
    (s.cmds = [] ∧ hostStep s = .next s) ∨
    (∃ (w : Word) (rest : List Word) (r : IllegalReason),
      s.cmds = w :: rest ∧ decode w = .error r ∧ hostStep s = .next (raiseIllegalCommand s)) ∨
    (∃ (w : Word) (rest : List Word) (i : Instr), s.cmds = w :: rest ∧ decode w = .ok i ∧ hostStep s = exec i s) := by
  simpa only [execOf_eq_exec, commandWord_reference] using hostStep_cases_of s

/-- A HOST step always goes on (R48). -/
theorem hostStep_next (s : Shaped.State S) : ∃ t, hostStep s = .next t := by
  obtain ⟨_, h⟩ | ⟨_, _, _, _, _, h⟩ | ⟨_, _, i, _, _, h⟩ := hostStep_cases_of s
  · exact ⟨_, h⟩
  · exact ⟨_, h⟩
  · obtain ⟨_, e⟩ | ⟨_, e⟩ | ⟨_, _, e⟩ | ⟨_, _, e⟩ | ⟨_, _, _, _, e⟩ | ⟨_, _, _, e⟩ | ⟨_, _, _, _, _, e⟩ | ⟨_, _, _, _, _, e⟩ :=
      execOf_cases i s <;> exact ⟨_, h.trans e⟩

/-- What a clock cycle is: reset, or the HOST's step and then the rest of the block (R26, R93). -/
theorem cycle_cases (io : Shaped.CycleIn S) (s t : Shaped.State S) (h : cycle io s = .next t) :
    (io.rstN = false ∧ t = resetBlock (beginCycle io s)) ∨
    (io.rstN = true ∧ ∃ u, t = clockBlock io (beginCycle io s) u ∧
      ((io.cmdValid = true ∧ hostStep (beginCycle io s) = .next u) ∨ (io.cmdValid = false ∧ u = beginCycle io s))) := by
  unfold cycle at h
  cases hr : io.rstN
  · simp only [hr] at h
    exact .inl ⟨rfl, by simpa using h.symm⟩
  · simp only [hr, if_true] at h
    obtain ⟨u, hu, rfl⟩ := andThen_eq_next h
    cases hv : io.cmdValid <;> simp only [hv] at hu
    · exact .inr ⟨rfl, u, rfl, .inr ⟨rfl, by simpa using hu.symm⟩⟩
    · exact .inr ⟨rfl, u, rfl, .inl ⟨rfl, by simpa using hu⟩⟩

/-- A step with a turn fixed is that turn. -/
theorem step_cons (s : State) (t : Turn) (rest : List Turn) (h : s.turns = t :: rest) :
    step s = takeTurn t (setTurns rest s) := by
  unfold step nextTurn
  rw [h]

/-- A step with no turn fixed is the default turn. -/
theorem step_nil (s : State) (h : s.turns = []) : step s = takeTurn (defaultTurn s) s := by
  unfold step nextTurn
  rw [h]

/-- Every step is a turn of the state's current turn, on a state that differs at most in the list of turns. -/
theorem step_eq (s : State) : ∃ rest, step s = takeTurn (currentTurn s) (setTurns rest s) := by
  unfold currentTurn
  cases h : s.turns with
  | nil =>
    have hs : setTurns [] s = s := by rw [← h]; rfl
    exact ⟨[], by rw [step_nil s h, hs]; rfl⟩
  | cons t rest => exact ⟨rest, by rw [step_cons s t rest h]; rfl⟩

/-- A run of one step more: its first step goes on, and the run does from there. -/
theorem run_succ_of_step {s s' : State} (k : Nat) (h : step s = .next s') : core.run (k + 1) s = core.run k s' := by
  have h' : core.step s = .next s' := h
  have e := Host.Core.run.eq_2 core s k
  rw [h'] at e
  exact e

/-- A run that goes on went on in its first step. -/
theorem run_succ_eq_next {s t : State} {k : Nat} (h : core.run (k + 1) s = .next t) :
    ∃ s', step s = .next s' ∧ core.run k s' = .next t := by
  cases hs : step s with
  | next s' => exact ⟨s', rfl, by rwa [run_succ_of_step k hs] at h⟩
  | fault r => cases r
  | refused r =>
    have h' : core.step s = .refused r := hs
    have e := Host.Core.run.eq_2 core s k
    rw [h'] at e
    cases e.symm.trans h

end Sys2Proof.Machine
end

