-- ==== Sys2Proof/Tests/Slice0.lean ====
section
/-! SUPPORT. The model's own tests: expected values from the spec's encodings, examples and test vectors (named at each
theorem; CT, DB, GR, CC, SP, RS are those of spec/95_test_vectors.md), and a witness for every statement with hypotheses. -/

namespace Sys2Proof.Tests

open Sys2Proof Sys2Proof.Machine

-- Helpers.

/-- `S0` of spec/95_test_vectors.md: reset, then the SPE's one LATCH step. -/
def s0 : State := { State.reset with txst := .idle, lcnt := 0, lt := [.latch] }

/-- A frame of digit `d` in flight at word `w`, bit `b`. -/
def shifting (d : Digit) (w : Cell) (b : Fin 24) : State :=
  { s0 with txst := .shift, txd := d, widx := w, bidx := b }

/-- A latch gap with `n` cycles to run. -/
def latching (n : Nat) : State := { s0 with txst := .latch, lcnt := n }

/-- The host presents `w`, and it is its turn. -/
def present (w : Word) (s : State) : State := { s with cmds := [w], turns := [.host] }

/-- Channel A with PEND and TS. -/
def withA (pend : Bool) (ts : Stamp) (s : State) : State := { s with chA := { s.chA with pend := pend, ts := ts } }

/-- A falling edge of channel A is about to be detected (R15). -/
def fallingA (s : State) : State := { s with chA := { s.chA with sync := 0b01, lvl := true } }

/-- An edge of channel `b` stamped `t`. -/
def edgeAt (b : Button) (t : Stamp) (s : State) : State := { s with now := t, turns := [.btn b] }

/-- A cycle without reset, both buttons released. -/
def quiet (t : Stamp) (v : Bool) : CycleIn := { rstN := true, btnNA := true, btnNB := true, nowMs := t, cmdValid := v }

/-- A cycle without reset, button A pressed, no command. -/
def pressed (t : Stamp) : CycleIn := { rstN := true, btnNA := false, btnNB := true, nowMs := t, cmdValid := false }

/-- A cycle with `rst_n = 0`. -/
def resetCycle : CycleIn := { rstN := false, btnNA := false, btnNB := true, nowMs := 0, cmdValid := false }

/-- The same state in an instance whose clock runs at 8 MHz, so that a bit period is 10 cycles. -/
def at8MHz (s : State) : State := { s with config := { s.config with fClkHz := 8000000 } }

/-- The next cycle is `io`. -/
def inCycle (io : CycleIn) (s : State) : State := { s with turns := [.cycle io] }

/-- A schedule of the HOST, an edge, an SPE step and a clock cycle. -/
def schedule : List Turn := [.host, .btn .A, .spe, .cycle (quiet 5 true)]

/-- A value of the state after one step. -/
def after {α : Type} (f : State → α) (s : State) : Option α :=
  match step s with
  | .next t => some (f t)
  | .fault _ => none
  | .refused _ => none

/-- The last response after one step. -/
def answer (s : State) : Option Rsp := (after (fun t => t.responses.getLast?) s).join

-- WellFormed: every check refuses an ill-formed term.

/-- R43(a): CT6, CT7. -/
theorem test_wf_opcode_refused : opcodeAssigned 0x60000000 = false ∧ legalWord 0xF0000000 = false := by decide
/-- R43(b): CT8 to CT13, CT16, CT17. -/
theorem test_wf_reserved_bits_refused :
    [0x00000001, 0x10000001, 0x20000002, 0x30000100, 0x40200000, 0x50000100, 0x0FFFFFFF, 0x5FFFFF03].map reservedBitsZero =
      List.replicate 8 false := by decide
/-- R39: the `match` words of the table are legal. -/
theorem test_wf_match_words_legal :
    [0x00000000, 0x10000000, 0x20000000, 0x30000000, 0x40000000, 0x50000000].map legalWord = List.replicate 6 true := by
  decide
/-- R45: operands just outside their ranges. -/
theorem test_wf_source_refused :
    [Source.ack (-1), .ack 2, .rdts (-1), .rdts 2, .encode 128 0 0, .encode 0 128 0, .encode 0 0 128, .encode (-1) 0 0,
      .render 256, .render (-129)].map Source.wellFormed = List.replicate 10 false := by decide
/-- R45: operands at the ends of their ranges. -/
theorem test_wf_source_accepted :
    [Source.nop, .rdstat, .ack 0, .ack 1, .rdts 0, .rdts 1, .encode 0 0 0, .encode 127 127 127, .render (-128),
      .render 255].map Source.wellFormed = List.replicate 10 true := by decide

-- Decode: words written out from the table of R38.

theorem test_decode_nop : decode 0b00000000000000000000000000000000 = .ok .nop := by decide
theorem test_decode_rdstat : decode 0b00010000000000000000000000000000 = .ok .rdstat := by decide
theorem test_decode_ack_a : decode 0b00100000000000000000000000000000 = .ok (.ack .A) := by decide
/-- R45: `ACK B` is 0x20000001. -/
theorem test_decode_ack_b : decode 0x20000001 = .ok (.ack .B) := by decide
theorem test_decode_rdts_a : decode 0b00110000000000000000000000000000 = .ok (.rdts .A) := by decide
theorem test_decode_rdts_b : decode 0b00110000000000000000000000000001 = .ok (.rdts .B) := by decide
/-- R45: `ENCODE 100, 0, 0` is 0x40190000. -/
theorem test_decode_encode_red : decode 0x40190000 = .ok (.encode 100 0 0) := by decide
/-- CC10 and CC15: three different operands. -/
theorem test_decode_encode_fields :
    decode 0x400C8501 = .ok (.encode 50 10 1) ∧ decode 0x4018F265 = .ok (.encode 99 100 101) := by decide
/-- R45: `RENDER 3`, `RENDER -1`, `RENDER 10`. -/
theorem test_decode_render :
    decode 0x50000003 = .ok (.render 3) ∧ decode 0x500000FF = .ok (.render 0xFF) ∧
    decode 0x5000000A = .ok (.render 10) := by decide
/-- CT6, CT7, CT14. -/
theorem test_decode_reserved_opcode :
    decode 0x60000000 = .error .reservedOpcode ∧ decode 0xF0000000 = .error .reservedOpcode ∧
    decode 0x70000000 = .error .reservedOpcode := by decide
/-- CT8 to CT13, CT16, CT17. -/
theorem test_decode_reserved_bit :
    [0x00000001, 0x10000001, 0x20000002, 0x30000100, 0x40200000, 0x50000100, 0x0FFFFFFF, 0x5FFFFF03].map decode =
      List.replicate 8 (.error .reservedBit) := by decide
/-- The opcode table's numbering is the word's own (R8). -/
theorem test_decode_table_word :
    decodeTableWord 32 0x20000001 = some (.ack .B) ∧ decodeTableWord 32 0x20000002 = none := by decide

-- The assembler: the examples of R45.

theorem test_assemble_examples :
    assembleLine "ACK B" = some 0x20000001 ∧ assembleLine "ENCODE 100, 0, 0" = some 0x40190000 ∧
    assembleLine "RENDER 3" = some 0x50000003 ∧ assembleLine "RENDER -1" = some 0x500000FF ∧
    assembleLine "RENDER 10" = some 0x5000000A := by decide
theorem test_assemble_rejects :
    assembleLine "RENDER 256" = none ∧ assembleLine "ENCODE 128, 0, 0" = none ∧ assembleLine "ACK 2" = none := by decide
/-- R45: comments, and `0x` numbers. -/
theorem test_assemble_comment_and_hex :
    assembleLine "NOP ; idle" = some 0 ∧ assembleLine "RENDER 0xF" = some 0x5000000F := by decide
/-- R46: the bodies of the pseudo-instructions. -/
theorem test_pseudo_bodies : Pseudo.body .ackAll = [.ack .A, .ack .B] ∧ Pseudo.body .waitIdle = [.rdstat] := by decide

-- Commands: one HOST step each.

/-- CT1. -/
theorem test_nop : answer (present 0 s0) = some 0 ∧ after (fun t => t.ill) (present 0 s0) = some false := by decide
/-- CT4. -/
theorem test_rdstat_shift :
    answer (present 0x10000000 { shifting 0 0 23 with chB := { s0.chB with pend := true } }) = some 6 := by decide
/-- CT5. -/
theorem test_rdstat_all :
    answer (present 0x10000000 { latching 5 with
      ill := true, chA := { s0.chA with pend := true }, chB := { s0.chB with pend := true } }) = some 0x1F := by decide
/-- DB14. -/
theorem test_ack_clears :
    answer (present 0x20000000 (withA true 7 s0)) = some 1 ∧
    after (fun t => t.chA) (present 0x20000000 (withA true 7 s0)) = some (withA false 7 s0).chA := by decide
/-- DB19. -/
theorem test_rdts : answer (present 0x30000001 { s0 with chB := { s0.chB with ts := 5000 } }) = some 0x1388 := by decide
/-- CC11. -/
theorem test_encode_halves : answer (present 0x4007A35A s0) = some 0x00B34DE6 := by decide
/-- CC14: the clamp. -/
theorem test_encode_clamp : answer (present 0x401FFFFF s0) = some 0x00FFFFFF := by decide
/-- SP1. -/
theorem test_render_starts :
    answer (present 0x50000003 s0) = some 1 ∧
    after (fun t => (t.txst, t.txd, t.widx, t.bidx)) (present 0x50000003 s0) = some (.shift, 3, 0, 23) := by decide
/-- SP7: the command stays, no response. -/
theorem test_render_held :
    after (fun t => (t.cmds, t.responses, t.txd)) (present 0x50000002 (shifting 1 5 3)) = some ([0x50000002], [], 1) := by
  decide
/-- CT10: PEND[0] stays. -/
theorem test_illegal_keeps_pend :
    after (fun t => (t.ill, t.chA.pend, t.responses)) (present 0x20000002 (withA true 7 s0)) = some (true, true, [0]) := by
  decide

/-- R24: cmd_ready is 1 in every cycle in which no RENDER is presented, also with one at hand and the SPE busy. -/
theorem test_cmd_ready_without_valid :
    cmdReady true false (present 0x50000002 (shifting 1 5 3)) = true ∧
    cmdReady true true (present 0x10000000 (shifting 1 5 3)) = true ∧
    cmdReady false false s0 = false := by decide

-- The debouncer.

/-- DB1, DB2. -/
theorem test_edge_strict :
    after (fun t => t.chA.pend) (edgeAt .A 200 s0) = some false ∧
    after (fun t => (t.chA.pend, t.chA.ts)) (edgeAt .A 201 s0) = some (true, 201) := by decide
/-- DB11, DB12: across the wrap of the clock. -/
theorem test_edge_wrap :
    after (fun t => t.chA.pend) (edgeAt .A 0xB8 (withA false 0xFFFFFFF0 s0)) = some false ∧
    after (fun t => (t.chA.pend, t.chA.ts)) (edgeAt .A 0xB9 (withA false 0xFFFFFFF0 s0)) = some (true, 0xB9) := by decide
/-- DB13: the clock stepped back. -/
theorem test_edge_clock_back :
    after (fun t => t.chA.pend) (edgeAt .A 900 (withA false 1000 s0)) = some true := by decide
/-- DB18: an accepted edge wins over the ACK of its cycle. -/
theorem test_cycle_ack_and_edge :
    answer (inCycle (quiet 1201 true) { fallingA (withA false 1000 s0) with cmds := [0x20000000] }) = some 0 ∧
    after (fun t => (t.chA.pend, t.chA.ts))
      (inCycle (quiet 1201 true) { fallingA (withA false 1000 s0) with cmds := [0x20000000] }) = some (true, 1201) := by
  decide

-- The glyph ROM and the codec.

/-- GR3. -/
theorem test_rom_cell_24 :
    (List.finRange 10).map (fun d => frameWord referenceConfig d 24) =
      [0, 0, 0x00FF00, 0, 0, 0, 0, 0, 0, 0] := by decide
/-- R61: the lit counts, and `#..#.` as the first row of 4. -/
theorem test_rom_lit_counts :
    (List.finRange 10).map (fun d => (List.finRange 25).countP (fun i => (romRead referenceConfig d).getLsbD i)) =
      [12, 8, 14, 13, 11, 15, 13, 9, 13, 13] ∧
    (List.range 5).map (romRead referenceConfig 4).getLsbD = [true, false, false, true, false] := by decide
/-- R68: points of the reference table. -/
theorem test_conv_table :
    [1, 2, 13, 29, 31, 37, 50, 63, 74, 99, 100, 101, 127].map (conv referenceShape .up) =
      [3, 5, 33, 74, 79, 94, 128, 161, 189, 252, 255, 255, 255] := by decide

-- The serial engine.

/-- SP12, SP13, SP14. -/
theorem test_shift_bits :
    [shifting 1 2 15, shifting 1 2 16, shifting 1 0 12].map
      (fun s => after (fun t => t.lt) { s with turns := [.spe] }) =
      [some [.latch, .bit true], some [.latch, .bit false], some [.latch, .bit false]] := by decide
/-- SP10, SP11. -/
theorem test_shift_advance :
    after (fun t => t.txst) { shifting 3 24 0 with turns := [.spe] } = some .latch ∧
    after (fun t => (t.widx, t.bidx)) { shifting 3 3 0 with turns := [.spe] } = some (4, 23) := by decide
/-- R76. -/
theorem test_latch :
    after (fun t => (t.txst, t.lt)) { latching 9 with turns := [.spe] } = some (.idle, [.latch, .latch]) := by decide

-- An instance of another shape (R5; log 23): one channel, 8-bit time, three synchroniser stages, two glyphs of four cells,
-- 4-bit device values in 12-bit words.

abbrev smallShape : Config.Shape :=
  { nBtn := 1, tsW := 8, syncStages := 3, nGlyph := 2, numPixels := 4, pctW := 7, devW := 4, wordW := 12, cmdW := 32,
    rspW := 16 }

def smallConfig : Config.Params smallShape :=
  { debounceMs := 20, glyphRom := #v[0x9, 0x6], litColour := (100, 0, 0), fClkHz := 8000000, tBitNs := 1250, t0hNs := 400,
    t1hNs := 800, tResetNs := 280000, tsReset := 0xF0, roundHalf := .up, base := 0 }

/-- R54, R9: the difference is taken modulo 2^8; the second channel does not exist. -/
theorem test_small_shape_edges :
    accepts (resetOf smallConfig) .A 0x05 = true ∧ accepts (resetOf smallConfig) .A 0x04 = false ∧
    accepts (resetOf smallConfig) .B 0x80 = false := by decide
/-- R63, R69, R78: a lit cell's word is full red, green above it and blue below; four words of 12 bits, and the latch. -/
theorem test_small_shape_frame :
    (List.finRange 4).map (frameWord smallConfig 0) = [0x0F0, 0, 0, 0x0F0] ∧ (frame smallConfig 1).length = 49 := by decide

-- Reset.

/-- CT2. -/
theorem test_reset_status : answer (present 0x10000000 State.reset) = some 0xC := by decide
/-- RS1, RS2: the registers a reset in mid-frame clears, and the bits sent before it, which are still on record. -/
theorem test_reset_cycle :
    after (fun t => (t.chA.pend, t.chA.ts, t.txst, t.lt)) (inCycle resetCycle (withA true 9 (shifting 4 4 19))) =
      some (false, 0, .latch, []) ∧
    after (fun t => t.ltBefore) (inCycle resetCycle (shifting 4 4 19)) = some [.latch] := by decide

-- Witnesses: a concrete state and operands that meet the hypotheses of each statement.

theorem witness_DecodeOfEncodeGivesInstruction :
    (Instr.encode 50 10 1).wellFormed = true ∧ (Instr.render 0xFF).wellFormed = true := by decide
theorem witness_EncodeOfDecodeGivesWord : decode 0x400C8501 = .ok (.encode 50 10 1) := by decide
theorem witness_DecoderRejectsExactlyIllegalWords :
    6 ≤ ((0x60000000#32).extractLsb' 28 4).toNat ∧
    ∃ r ∈ opcodeRows, r.opcode = (0x5FFFFF03#32).extractLsb' 28 4 ∧ 0x5FFFFF03#32 &&& r.mask ≠ r.pattern := by decide
theorem witness_EveryWordMatchesAtMostOneRow : ∃ r ∈ opcodeRows, r.accepts 0x20000001 = true := by decide
theorem witness_AssemblerChecksRangesAndEncodes :
    Source.wellFormed (.render (-129)) = false ∧ Source.wellFormed (.ack 2) = false ∧ (0 : Int) ≤ 1 ∧ (1 : Int) ≤ 1 ∧
    (0 : Int) ≤ 127 ∧ (127 : Int) ≤ 127 ∧ (-128 : Int) ≤ -1 ∧ (-1 : Int) ≤ 255 := by decide
theorem witness_StepRunsPresentedCommand :
    ∃ s : State, s.cmds = [0x20000001] ∧ decode 0x20000001 = .ok (.ack .B) ∧ s.turns = [.cycle (quiet 5 true)] ∧
      (quiet 5 true).rstN = true ∧ (quiet 5 true).cmdValid = true ∧
      ({ s with turns := [.host] } : State).turns = [.host] :=
  ⟨{ s0 with cmds := [0x20000001], turns := [.cycle (quiet 5 true)] }, rfl, by decide, rfl, rfl, rfl, rfl⟩
theorem witness_IllegalWordSetsIllAndRespondsZero :
    (present 0x60000000 s0).turns = [.host] ∧ (present 0x60000000 s0).cmds = [0x60000000] ∧
    6 ≤ ((0x60000000#32).extractLsb' 28 4).toNat ∧
    (∃ r ∈ opcodeRows, r.opcode = (0x20000002#32).extractLsb' 28 4 ∧ 0x20000002#32 &&& r.mask ≠ r.pattern) ∧
    ∃ r ∈ opcodeRows, 0x20000001#32 &&& r.mask = r.pattern := by decide
theorem witness_ClockTurnSetsNow :
    ({ s0 with turns := [.clock 900, .spe] } : State).turns = [.clock 900, .spe] := rfl
theorem witness_ConfigurationNeverChanges :
    ∃ t, step (inCycle resetCycle (at8MHz (shifting 4 4 19))) = .next t ∧ t.config.fClkHz = 8000000 := ⟨_, rfl, rfl⟩
theorem witness_HostStepAcceptsOrHolds :
    (present 0x50000002 s0).cmds = [0x50000002] ∧ cmdReady true true (present 0x50000002 s0) = true ∧
    cmdReady true true (present 0x50000002 (shifting 1 5 3)) = false := by decide
theorem witness_CmdReadyLowOnlyForHeldRender :
    (present (encode (.render 9)) (latching 0)).cmds.head? = some (encode (.render 9)) ∧ (latching 0).txst ≠ .idle ∧
    (9 : BitVec 8).toNat ≤ 9 ∧ cmdReady true true (present (encode (.render 9)) (latching 0)) = false := by decide
theorem witness_NopRespondsZero : (0x00000001#32).extractLsb' 28 4 = 0 ∧ (0x00000001#32) ≠ 0 := by decide
theorem witness_RenderOutOfRangeIsNoOp : 10 ≤ (10 : BitVec 8).toNat ∧ 10 ≤ (0xFF : BitVec 8).toNat := by decide
theorem witness_RenderInIdleStartsFrame :
    s0.txst = .idle ∧ (0 : BitVec 8).toNat < 10 ∧ (9 : BitVec 8).toNat < 10 := by decide
theorem witness_RenderWhileBusyIsHeld :
    (9 : BitVec 8).toNat < 10 ∧ (present (encode (.render 9)) (shifting 1 5 3)).txst ≠ .idle ∧
    (present (encode (.render 9)) (shifting 1 5 3)).turns = [.host] ∧
    (present (encode (.render 9)) (shifting 1 5 3)).cmds = [encode (.render 9)] := by decide
theorem witness_HeldRenderIsAcceptedWithin602Steps :
    ∃ s : State, (9 : BitVec 8).toNat < 10 ∧ s.turns = [] ∧ s.txst = .shift ∧ s.cmds = [encode (.render 9), 0] :=
  ⟨{ shifting 1 0 23 with cmds := [encode (.render 9), 0], turns := [] }, by decide, rfl, rfl, rfl⟩
theorem witness_EdgeStepFollowsDebounceTest :
    (edgeAt .A 201 s0).turns = [.btn .A] ∧ (edgeAt .B 200 s0).turns = [.btn .B] := by decide
theorem witness_AcceptedEdgeWhilePendingCoalesces :
    ((withA true 1000 s0).chan .A).pend = true ∧
    (withA true 1000 s0).config.debounceMs < (1201 - ((withA true 1000 s0).chan .A).ts).toNat := by
  decide
theorem witness_AcceptedEdgesAreAtLeast201Apart :
    [(201 : Stamp), 401, 402].Pairwise (fun t u => t.toNat ≤ u.toNat) ∧ acceptedStamps .A s0 [201, 401, 402] = [201, 402] := by
  decide
theorem witness_PendRisesOnlyByAcceptedEdge :
    ∃ t, step (edgeAt .A 201 s0) = .next t ∧ ((edgeAt .A 201 s0).chan .A).pend = false ∧ (t.chan .A).pend = true :=
  ⟨_, rfl, by decide, by decide⟩
theorem witness_PendFallsOnlyByAckOrReset :
    ∃ t, step (present (encode (.ack .A)) (withA true 7 s0)) = .next t ∧
      ((present (encode (.ack .A)) (withA true 7 s0)).chan .A).pend = true ∧ (t.chan .A).pend = false ∧
      (currentTurn (present (encode (.ack .A)) (withA true 7 s0))).isReset = false :=
  ⟨_, rfl, by decide, by decide, by decide⟩
/-- An edge turn, and a clock cycle. -/
theorem witness_TimestampChangesOnlyByAcceptedEdge :
    (∃ t, step (edgeAt .B 201 s0) = .next t ∧ (t.chan .B).ts ≠ ((edgeAt .B 201 s0).chan .B).ts ∧
      (currentTurn (edgeAt .B 201 s0)).isReset = false) ∧
    ∃ t, step (inCycle (quiet 1201 false) (fallingA (withA true 1000 s0))) = .next t ∧ (t.chan .A).ts = 1201 ∧
      (currentTurn (inCycle (quiet 1201 false) (fallingA (withA true 1000 s0)))).isReset = false :=
  ⟨⟨_, rfl, by decide, by decide⟩, ⟨_, rfl, by decide, by decide⟩⟩
theorem witness_IllIsStickyUntilReset :
    (∃ t, step (present 0 { s0 with ill := true }) = .next t ∧ t.ill = true ∧
      (currentTurn (present 0 { s0 with ill := true })).isReset = false) ∧
    (∃ t, step (present 0xF0000000 s0) = .next t ∧ (present 0xF0000000 s0).ill = false ∧ t.ill = true) ∧
    (present 0xF0000000 s0).cmds = [0xF0000000] ∧ legalWord 0xF0000000 = false :=
  ⟨⟨_, rfl, by decide, by decide⟩, ⟨_, rfl, by decide, by decide⟩, rfl, by decide⟩
theorem witness_IrqFollowsPendingFlags : s0.config.debounceMs < ((201 : Stamp) - (s0.chan .B).ts).toNat := by decide
theorem witness_ConvRoundsHalvesUpAndClamps :
    (1 : Pct) ≠ 0 ∧ (100 : Pct).toNat ≤ 100 ∧ 101 ≤ (101 : Pct).toNat ∧ 101 ≤ (127 : Pct).toNat := by decide
theorem witness_PackedColourIsMonotonic :
    (0 : Pct).toNat ≤ (127 : Pct).toNat ∧ (99 : Pct).toNat < (100 : Pct).toNat ∧ (100 : Pct).toNat ≤ 100 := by decide
theorem witness_GlyphsDifferAndWordsAreRed : (6 : Digit) ≠ 8 ∧ referenceConfig.litColour = (100, 0, 0) := by
  decide
theorem witness_FrameSymbolsByPosition : referenceConfig.litColour = (100, 0, 0) ∧ 599 < 600 := by decide
theorem witness_ShiftStepSendsBitAndAdvances :
    ({ shifting 3 3 0 with turns := [.spe] } : State).turns = [.spe] ∧ (shifting 3 3 0).txst = .shift ∧
    (0 < (shifting 3 3 23).bidx.val) ∧ ((shifting 3 23 0).bidx.val = 0 ∧ (shifting 3 23 0).widx.val < 24) ∧
    ((shifting 3 24 0).bidx.val = 0 ∧ (shifting 3 24 0).widx.val = 24) := by decide
theorem witness_LatchStepEndsGapAndIdleRests :
    ({ latching 9 with turns := [.spe] } : State).turns = [.spe] ∧ (latching 9).txst = .latch ∧ s0.txst = .idle := by decide
theorem witness_OnlyInRangeRenderLeavesIdle :
    ∃ t, step (present (encode (.render 9)) s0) = .next t ∧ (present (encode (.render 9)) s0).txst = .idle ∧
      t.txst ≠ .idle ∧ (currentTurn (present (encode (.render 9)) s0)).isReset = false :=
  ⟨_, rfl, by decide, by decide, by decide⟩
theorem witness_RenderAfterIdleStatusIsNotHeld :
    (statusWord s0).getLsbD 2 = false ∧ (9 : BitVec 8).toNat < 10 ∧ (quiet 5 false).rstN = true ∧
    (quiet 5 false).cmdValid = false ∧ ∃ u, runTurns [.cycle (quiet 5 false), .spe, .clock 900, .btn .A] s0 = .next u :=
  ⟨by decide, by decide, rfl, rfl, ⟨_, rfl⟩⟩
theorem witness_BusyFrameIsNotDisturbed :
    (∃ t, step { shifting 3 24 0 with turns := [.spe] } = .next t) ∧ (shifting 3 24 0).txst ≠ .idle ∧
    (currentTurn { shifting 3 24 0 with turns := [.spe] }).isReset = false ∧
    ∃ t, exec (.render 2) (shifting 3 24 0) = .next t :=
  ⟨⟨_, rfl⟩, by decide, by decide, ⟨_, rfl⟩⟩
theorem witness_OnlySpeStepsAdvanceTheFrame :
    (∃ t, step { latching 9 with turns := [.spe] } = .next t) ∧ (latching 9).txst ≠ .idle ∧
    (currentTurn { latching 9 with turns := [.spe] }).isReset = false :=
  ⟨⟨_, rfl⟩, by decide, by decide⟩
theorem witness_SpeReachesIdleWithin601Steps :
    (shifting 3 0 23).txst ≠ .idle ∧ speStepsLeft (shifting 3 0 23) = 601 ∧ 600 < speStepsLeft (shifting 3 0 23) := by decide
/-- The first clause with a HOST turn, an edge and a clock cycle in the schedule, the second with a HOST turn. -/
theorem witness_AcceptedRenderSendsWholeFrame :
    s0.txst = .idle ∧ (3 : BitVec 8).toNat < 10 ∧
    ∃ u, exec (.render 3) { s0 with cmds := [0x50000003, 0x10000000, 0x50000004] } = .next u ∧
      (∀ x ∈ schedule, x.isReset = false) ∧
      (∃ v, runTurns schedule u = .next v) ∧
      (∀ n, n < 4 → ∀ w, runTurns (schedule.take n) u = .next w →
        w.txst ≠ .idle) ∧
      (∀ x ∈ (.host : Turn) :: List.replicate 600 .spe, ∀ io, x ≠ .cycle io) ∧
      ((.host : Turn) :: List.replicate 600 .spe).count .spe = 600 := by
  refine ⟨rfl, by decide, _, rfl, by decide, ⟨_, rfl⟩, ?_, ?_, ?_⟩
  · intro n hn w hw
    match n, hn with
    | 0, _ => cases hw; decide
    | 1, _ => cases hw; decide
    | 2, _ => cases hw; decide
    | 3, _ => cases hw; decide
  · intro x hx io
    simp only [List.mem_cons, List.mem_replicate] at hx
    obtain rfl | ⟨_, rfl⟩ := hx <;> simp
  · rw [List.count_cons_of_ne (by decide), List.count_replicate_self]
/-- The state after the first gap meets the invariant, and takes a step. -/
theorem witness_EveryStepKeepsInvariant :
    MachineInvariant (present (encode (.render 3)) s0) ∧ ∃ t, step (present (encode (.render 3)) s0) = .next t :=
  ⟨⟨fun _ => rfl, fun _ => rfl, .inl rfl, fun _ => rfl, Nat.zero_le _, by decide, ⟨[], rfl⟩⟩, ⟨_, rfl⟩⟩
theorem witness_FirstSymbolAfterResetIsLatch :
    ∃ t, core.run 1 { resetBlock (shifting 4 4 19) with turns := [.spe], cmds := [0x50000003] } = .next t ∧
      t.lt.head? = some .latch :=
  ⟨_, rfl, rfl⟩
/-- A cycle in which the HOST, channel A and, the gap being over, the SPE step; one with none of them; and in SHIFT, with
bit periods of 10 cycles, the last cycle of a period and the one before it. -/
theorem witness_CycleIsOrderedAgentSteps :
    (quiet 1201 true).rstN = true ∧ cycleTurns (quiet 1201 true) (fallingA (latching 0)) = [.host, .btn .A, .spe] ∧
    cycleTurns (quiet 1201 false) (latching 1) = [] ∧
    speFires { at8MHz (shifting 1 5 3) with pcnt := 9 } = true ∧
    speFires { at8MHz (shifting 1 5 3) with pcnt := 8 } = false := by
  refine ⟨rfl, by decide, by decide, ?_, ?_⟩ <;>
    simp [speFires, at8MHz, shifting, s0, State.reset, resetOf, referenceConfig, bitCycles, roundCycles]
theorem witness_IllegalWordInCycleSetsIll :
    ∃ s : State, s.turns = [.cycle (quiet 5 true)] ∧ (quiet 5 true).rstN = true ∧ (quiet 5 true).cmdValid = true ∧
      s.cmds = [0x50000103, 0] ∧ legalWord 0x50000103 = false :=
  ⟨{ shifting 1 5 3 with cmds := [0x50000103, 0], turns := [.cycle (quiet 5 true)] }, rfl, rfl, rfl, rfl, by decide⟩
/-- An accepted edge, a discarded one with the channel's ACK, and the ACK alone. -/
theorem witness_CycleUpdatesChannels :
    (inCycle (quiet 1201 true) (fallingA (withA true 1000 s0))).turns = [.cycle (quiet 1201 true)] ∧
    (quiet 1201 true).rstN = true ∧ ((fallingA (withA true 1000 s0)).chan .A).falling = true ∧
    s0.config.debounceMs < ((1201 : Stamp) - ((fallingA (withA true 1000 s0)).chan .A).ts).toNat ∧
    ¬ s0.config.debounceMs < ((1200 : Stamp) - ((fallingA (withA true 1000 s0)).chan .A).ts).toNat ∧
    (present (encode (.ack .A)) s0).cmds.head? = some (encode (.ack .A)) := by decide
/-- R54, R56: the edge in the cycle of the ACK is discarded, and the ACK clears the flag. -/
theorem test_cycle_ack_and_discarded_edge :
    after (fun t => (t.chA.pend, t.chA.ts, t.responses))
      (inCycle (quiet 1200 true) { fallingA (withA true 1000 s0) with cmds := [0x20000000] }) =
      some (false, 1000, [1]) := by decide
theorem witness_EdgeSetWinsOverAckInOneCycle :
    ∃ s : State, s.turns = [.cycle (quiet 1201 true)] ∧ s.cmds = [encode (.ack .A)] ∧ (s.chan .A).falling = true ∧
      s.config.debounceMs < (1201 - (s.chan .A).ts).toNat ∧ (quiet 1201 true).rstN = true ∧ (quiet 1201 true).cmdValid = true :=
  ⟨{ fallingA (withA true 1000 s0) with cmds := [encode (.ack .A)], turns := [.cycle (quiet 1201 true)] },
    rfl, rfl, by decide, by decide, rfl, rfl⟩
theorem witness_ReadsInOneCycleSeeItsStart :
    ∃ s : State, s.turns = [.cycle (quiet 1300 true)] ∧ s.cmds = [encode (.rdts .A)] ∧
      (quiet 1300 true).rstN = true ∧ (quiet 1300 true).cmdValid = true ∧
      ({ s with cmds := [encode .rdstat] } : State).cmds = [encode .rdstat] :=
  ⟨{ fallingA (withA true 1000 s0) with cmds := [encode (.rdts .A)], turns := [.cycle (quiet 1300 true)] },
    rfl, rfl, rfl, rfl, rfl⟩
theorem witness_ResetCycleResetsBlock :
    (inCycle resetCycle (shifting 4 4 19)).turns = [.cycle resetCycle] ∧ resetCycle.rstN = false := by decide
theorem witness_FallingEdgeIsSeenAfterTwoCycles :
    ({ s0 with turns := [.cycle (quiet 1 false), .cycle (pressed 2), .cycle (pressed 3)] } : State).turns =
      [.cycle (quiet 1 false), .cycle (pressed 2), .cycle (pressed 3)] ∧
    (quiet 1 false).rstN = true ∧ (pressed 2).rstN = true ∧ ((quiet 1 false).btnNA && !(pressed 2).btnNA) = true := by decide
theorem witness_FallingEdgeIsSeenAfterSyncStages :
    ∃ i j k l : Shaped.CycleIn smallShape, hasChannel smallShape .A = true ∧ [k, l].length + 1 = smallShape.syncStages ∧
      (∀ io ∈ i :: j :: [k, l], io.rstN = true) ∧ (i.btnN .A && !j.btnN .A) = true :=
  ⟨⟨true, true, true, 1, false⟩, ⟨true, false, true, 2, false⟩, ⟨true, false, true, 3, false⟩, ⟨true, true, true, 4, true⟩,
    by decide, by decide, by decide, by decide⟩
theorem witness_ButtonHeldThroughResetIsOneEdge :
    (∀ io ∈ [pressed 1000, pressed 1000, pressed 1000, pressed 1000],
      io.rstN = true ∧ io.btnNA = false ∧ io.cmdValid = false) ∧ resetCycle.rstN = false ∧
    ∃ s : State, s.turns = [.cycle resetCycle, .cycle (pressed 1000), .cycle (pressed 1000), .cycle (pressed 1000),
      .cycle (pressed 1000)] :=
  ⟨by decide, rfl, { s0 with turns := [.cycle resetCycle, .cycle (pressed 1000), .cycle (pressed 1000),
    .cycle (pressed 1000), .cycle (pressed 1000)] }, rfl⟩
theorem witness_ShiftCycleFollowsBitWaveform : (quiet 5 true).rstN = true ∧ (shifting 3 24 0).txst = .shift := by decide
theorem witness_LatchGapLastsItsCount :
    (latching 1).txst = .latch ∧ (∀ io ∈ [quiet 5 true, quiet 6 true], io.rstN = true) ∧
    [quiet 5 true].length ≤ (latching 1).lcnt ∧ [quiet 5 true, quiet 6 true].length = (latching 1).lcnt + 1 ∧
    ({ latching 1 with turns := [quiet 5 true, quiet 6 true].map .cycle } : State).turns =
      [quiet 5 true, quiet 6 true].map .cycle := by decide

end Sys2Proof.Tests
end

section
/-! SUPPORT. The CLOCK agent (spec/00_scope.md R7, spec/20_memory.md R19). -/

namespace Sys2Proof.Machine

/-- A step whose turn is the CLOCK's is the CLOCK step, on the state with that turn used up. -/
theorem step_clock {s : State} {n : Stamp} {ts : List Turn} (h : s.turns = .clock n :: ts) :
    step s = .next (clockStep n (setTurns ts s)) :=
  step_cons s (.clock n) ts h

/-- The whole frame of a CLOCK turn: NOW and the list of turns are the two fields replaced. -/
theorem clockStep_setTurns (s : State) (n : Stamp) (ts : List Turn) :
    clockStep n (setTurns ts s) = { s with turns := ts, now := n } := rfl

/-- Settles O10: the step is the CLOCK step, which writes NOW only. -/
theorem clockTurnSetsNow : Obligations.ClockTurnSetsNow := by
  intro s n ts h
  rw [step_clock h, clockStep_setTurns]

end Sys2Proof.Machine
end

section
/-! SUPPORT. The decoder and the encoder (spec/30_encoding.md R38, R39, R43): a word is its fields side by side, so a word
that decodes is the word of its command; and a word decodes exactly where it is legal. -/

namespace Sys2Proof

/-- The check goes on exactly where the reserved bits are zero, and with the command it was given (R38, R43). -/
theorem checkReserved_eq_ok_iff {w : Word} {lo n : Nat} {i j : Instr} :
    checkReserved w lo n i = .ok j ↔ w.extractLsb' lo n = 0 ∧ i = j := by
  unfold checkReserved
  split <;> rename_i h
  · simp [h]
  · exact ⟨nofun, fun ⟨h0, _⟩ => absurd h0 h⟩

/-- A word whose reserved bits are zero is its opcode, those zeros and the operand bits below them (R38). -/
theorem append_fields_eq {w : Word} {lo n k : Nat} (hlen : 4 + (n + lo) = 32)
    (hop : (w.extractLsb' 28 4).toNat = k) (hr : w.extractLsb' lo n = 0) :
    (BitVec.ofNat 4 k ++ ((0 : BitVec n) ++ w.extractLsb' 0 lo)).cast hlen = w := by
  rw [← hop, BitVec.ofNat_toNat, BitVec.setWidth_eq, ← hr,
    BitVec.extractLsb'_append_extractLsb'_eq_extractLsb' (by omega),
    BitVec.extractLsb'_append_extractLsb'_eq_extractLsb' (by omega)]
  generalize 4 + (n + lo) = len at hlen
  subst hlen
  exact BitVec.extractLsb'_eq_self

-- The words of the encoding with operands, as their fields side by side (R38).
theorem encode_ack_eq_append (c : BitVec 1) : encode (.ack (Button.ofBit c)) = 0x2#4 ++ (0#27 ++ c) := by
  revert c; decide

theorem encode_rdts_eq_append (c : BitVec 1) : encode (.rdts (Button.ofBit c)) = 0x3#4 ++ (0#27 ++ c) := by
  revert c; decide

theorem encode_render_eq_append (d : BitVec 8) : encode (.render d) = 0x5#4 ++ (0#20 ++ d) := by
  revert d; decide

theorem encode_encode_eq_append (pr pg pb : Pct) :
    encode (.encode pr pg pb) = 0x4#4 ++ (0#7 ++ (pr ++ (pg ++ pb))) := by
  apply BitVec.eq_of_getLsbD_eq
  intro i hi
  simp only [encode, BitVec.getLsbD_append]
  interval_cases i <;> simp

/-- A word that decodes is the word of the command it decodes to (R39). -/
theorem encode_of_decode {w : Word} {i : Instr} (h : decode w = .ok i) : encode i = w := by
  unfold decode at h
  split at h
  case h_7 => cases h
  all_goals
    rename_i hop
    obtain ⟨hr, rfl⟩ := checkReserved_eq_ok_iff.mp h
    have hw := append_fields_eq rfl hop hr
  · rw [BitVec.eq_nil (w.extractLsb' 0 0)] at hw
    exact hw
  · rw [BitVec.eq_nil (w.extractLsb' 0 0)] at hw
    exact hw
  · exact (encode_ack_eq_append _).trans hw
  · exact (encode_rdts_eq_append _).trans hw
  · refine (encode_encode_eq_append _ _ _).trans ?_
    rw [BitVec.extractLsb'_append_extractLsb'_eq_extractLsb' (by rfl),
      BitVec.extractLsb'_append_extractLsb'_eq_extractLsb' (by rfl)]
    exact hw
  · exact (encode_render_eq_append _).trans hw

/-- The word of RENDER decodes to it at every value of the digit field (R42). -/
theorem decode_encode_render (d : BitVec 8) : decode (encode (.render d)) = .ok (.render d) := by
  revert d; decide

/-- A word that matches a row of R39 has the row's pattern in every field that the row's mask fixes. -/
theorem extractLsb'_of_accepts {w : Word} {r : OpcodeRow} (lo n : Nat) (h : r.accepts w = true)
    (hm : r.mask.extractLsb' lo n = BitVec.allOnes n) : w.extractLsb' lo n = r.pattern.extractLsb' lo n := by
  have e : w &&& r.mask = r.pattern := by simpa [OpcodeRow.accepts] using h
  rw [← e, BitVec.extractLsb'_and, hm, BitVec.and_allOnes]

/-- A legal word matches a row of R39. -/
theorem exists_row_of_legalWord {w : Word} (h : legalWord w = true) : ∃ r ∈ opcodeRows, r.accepts w = true := by
  obtain ⟨ha, hz⟩ : opcodeAssigned w = true ∧ reservedBitsZero w = true := by simpa [legalWord] using h
  obtain ⟨r, hr, hop⟩ := List.any_eq_true.mp ha
  have hz := List.all_eq_true.mp hz r hr
  exact ⟨r, hr, by simpa [beq_iff_eq.mp hop] using hz⟩

/-- A word that matches a row of R39 decodes. -/
theorem decode_isOk_of_accepts {w : Word} {r : OpcodeRow} (hr : r ∈ opcodeRows) (h : r.accepts w = true) :
    ∃ i, decode w = .ok i := by
  have field := fun lo n => extractLsb'_of_accepts (r := r) lo n h
  simp only [opcodeRows, List.mem_cons, List.not_mem_nil, or_false] at hr
  unfold decode
  obtain rfl | rfl | rfl | rfl | rfl | rfl := hr <;> rw [field 28 4 (by decide)]
  · exact ⟨_, checkReserved_eq_ok_iff.mpr ⟨field 0 28 (by decide), rfl⟩⟩
  · exact ⟨_, checkReserved_eq_ok_iff.mpr ⟨field 0 28 (by decide), rfl⟩⟩
  · exact ⟨_, checkReserved_eq_ok_iff.mpr ⟨field 1 27 (by decide), rfl⟩⟩
  · exact ⟨_, checkReserved_eq_ok_iff.mpr ⟨field 1 27 (by decide), rfl⟩⟩
  · exact ⟨_, checkReserved_eq_ok_iff.mpr ⟨field 21 7 (by decide), rfl⟩⟩
  · exact ⟨_, checkReserved_eq_ok_iff.mpr ⟨field 8 20 (by decide), rfl⟩⟩

/-- The word of a command is legal (R39). -/
theorem legalWord_encode (i : Instr) : legalWord (encode i) = true := by
  cases i with
  | nop => exact Laws.LegalEncoding.nop
  | rdstat => exact Laws.LegalEncoding.rdstat
  | ack c => exact Laws.LegalEncoding.ack c
  | rdts c => exact Laws.LegalEncoding.rdts c
  | encode pr pg pb => exact Laws.LegalEncoding.encode pr pg pb
  | render d => exact Laws.LegalEncoding.render d

/-- The decoder rejects exactly the illegal words of R43. -/
theorem legalWord_eq_false_iff (w : Word) : legalWord w = false ↔ ∃ r, decode w = .error r := by
  constructor
  · intro hl
    cases hd : decode w with
    | ok i => rw [← encode_of_decode hd, legalWord_encode] at hl; cases hl
    | error r => exact ⟨r, rfl⟩
  · rintro ⟨e, he⟩
    by_contra hl
    obtain ⟨r, hr, ha⟩ := exists_row_of_legalWord (Bool.not_eq_false _ ▸ hl)
    obtain ⟨i, hi⟩ := decode_isOk_of_accepts hr ha
    cases hi.symm.trans he

end Sys2Proof
end

section
/-! SUPPORT. What the agents leave alone: the parameters, the channels and ILL, operation by operation. -/

namespace Sys2Proof.Machine

variable {S : Config.Shape}

@[simp] theorem chan_startFrame (d : Fin S.nGlyph) (s : Shaped.State S) (b : Button) :
    (startFrame d s).chan b = s.chan b := by cases b <;> rfl
@[simp] theorem chan_raiseIllegalCommand (s : Shaped.State S) (b : Button) :
    (raiseIllegalCommand s).chan b = s.chan b := by cases b <;> rfl
@[simp] theorem chan_clockStep (n : S.Stamp) (s : Shaped.State S) (b : Button) :
    (clockStep n s).chan b = s.chan b := by cases b <;> rfl
@[simp] theorem chan_resetBlock (s : Shaped.State S) (b : Button) :
    (resetBlock s).chan b = channelReset s.config := by cases b <;> rfl
@[simp] theorem chan_setPend_same (b : Button) (v : Bool) (s : Shaped.State S) :
    (setPend b v s).chan b = (s.chan b).withPend v := chan_setChan_same s b _

theorem chan_setPend_other {b b' : Button} (v : Bool) (s : Shaped.State S) (h : b' ≠ b) :
    (setPend b v s).chan b' = s.chan b' := chan_setChan_other s _ h

@[simp] theorem channelReset_pend (P : Config.Params S) : (channelReset P).pend = false := rfl

-- An SPE step touches only its own registers and the trace (R74 to R77).
@[simp] theorem speStep_config (s : Shaped.State S) : (speStep s).config = s.config := by
  obtain ⟨_, e⟩ | ⟨_, e⟩ | ⟨_, e⟩ := speStep_cases s <;> simp [e]
@[simp] theorem speStep_ill (s : Shaped.State S) : (speStep s).ill = s.ill := by
  obtain ⟨_, e⟩ | ⟨_, e⟩ | ⟨_, e⟩ := speStep_cases s <;> simp [e]
@[simp] theorem chan_speStep (s : Shaped.State S) (b : Button) : (speStep s).chan b = s.chan b := by
  obtain ⟨_, e⟩ | ⟨_, e⟩ | ⟨_, e⟩ := speStep_cases s <;> cases b <;> simp [e, Shaped.State.chan]

-- An edge step touches only its channel (R54).
@[simp] theorem edge_config (b : Button) (n : S.Stamp) (s : Shaped.State S) : (edge b n s).config = s.config := by
  obtain ⟨_, e⟩ | ⟨_, e⟩ := edgeFrom_cases s b n s <;> simp [edge, e]
@[simp] theorem edge_ill (b : Button) (n : S.Stamp) (s : Shaped.State S) : (edge b n s).ill = s.ill := by
  obtain ⟨_, e⟩ | ⟨_, e⟩ := edgeFrom_cases s b n s <;> simp [edge, e]

theorem chan_edge_other {b b' : Button} (n : S.Stamp) (s : Shaped.State S) (h : b' ≠ b) :
    (edge b n s).chan b' = s.chan b' := by
  obtain ⟨_, e⟩ | ⟨_, e⟩ := edgeFrom_cases s b n s <;> simp [edge, e, chan_setChan_other s _ h]

/-- What an edge step leaves in its own channel (R54). -/
theorem chan_edge_same (b : Button) (n : S.Stamp) (s : Shaped.State S) :
    (edge b n s).chan b = if accepts s b n = true then (s.chan b).latchEdge n else s.chan b := by
  obtain ⟨h, e⟩ | ⟨h, e⟩ := edgeFrom_cases s b n s <;> simp [edge, e, h]

-- What the block does in a cycle after the HOST step (R26).
@[simp] theorem clockBlock_config (io : Shaped.CycleIn S) (s0 s : Shaped.State S) :
    (clockBlock io s0 s).config = s.config := by simp [clockBlock]
@[simp] theorem clockBlock_ill (io : Shaped.CycleIn S) (s0 s : Shaped.State S) :
    (clockBlock io s0 s).ill = s.ill := by simp [clockBlock]
@[simp] theorem clockBlock_rspData (io : Shaped.CycleIn S) (s0 s : Shaped.State S) :
    (clockBlock io s0 s).rspData = s.rspData := by simp [clockBlock]
@[simp] theorem clockBlock_responses (io : Shaped.CycleIn S) (s0 s : Shaped.State S) :
    (clockBlock io s0 s).responses = s.responses := by simp [clockBlock]

/-- In a cycle the debouncer alone writes the channels: an edge accepted on the state at the start of the cycle, then the
sampling of the line (R26, R52, R54). -/
theorem clockBlock_chan (io : CycleIn) (s0 s : State) (b : Button) :
    (clockBlock io s0 s).chan b = Shaped.Channel.sample
      (if ((s0.chan b).falling && accepts s0 b io.nowMs) = true then (s.chan b).latchEdge io.nowMs else s.chan b)
      (io.btnN b) := by
  rw [← debounceInCycle_chan]
  cases b <;> simp [clockBlock, Shaped.State.chan]

end Sys2Proof.Machine
end

section
/-! SUPPORT. The outputs computed from the state (spec/10_state.md R21, R22, R24). -/

namespace Sys2Proof.Machine

variable {S : Config.Shape}

/-- Bit 4 of the status word is ILL (R21). -/
theorem statusWord_bit4 (s : State) : (statusWord s).getLsbD 4 = s.ill := by
  simp only [statusWord, zextRsp, bitOf, BitVec.getLsbD_setWidth, BitVec.getLsbD_append]
  simp

/-- Bits 1 and 0 of the status word are PEND of B and of A (R21). -/
theorem statusWord_pendingBits (s : State) :
    (statusWord s).extractLsb' 0 2 = bitOf s.chB.pend ++ bitOf s.chA.pend := by
  simp only [statusWord, bitOf]
  generalize s.ill = i, s.latching = l, s.busy = u, s.chB.pend = p, s.chA.pend = q
  revert i l u p q
  decide

/-- The line irq is high exactly while a channel is pending (R22). -/
theorem irq_eq_true_iff (s : Shaped.State S) : irq s = true ↔ ∃ b, (s.chan b).pend = true := by
  rw [irq, Bool.or_eq_true]
  constructor
  · rintro (h | h)
    · exact ⟨.A, h⟩
    · exact ⟨.B, h⟩
  · rintro ⟨_ | _, h⟩
    · exact .inl h
    · exact .inr h

/-- A digit field is in range exactly where its unsigned value is below N_GLYPH (R42). -/
theorem digitInRange_isSome_iff (d : BitVec 8) : (digitInRange (S := S) d).isSome = true ↔ d.toNat < S.nGlyph := by
  unfold digitInRange
  split <;> simp [*]

/-- `isInRangeRender` tests the word's command and its digit (R24). -/
theorem isInRangeRender_iff_decode (w : S.Word) :
    isInRangeRender w = true ↔ ∃ d, decode (commandWord w) = .ok (.render d) ∧ d.toNat < S.nGlyph := by
  unfold isInRangeRender
  split
  · rename_i d h
    simp [h, digitInRange_isSome_iff]
  · rename_i h
    exact ⟨nofun, fun ⟨d, hd, _⟩ => absurd hd (h d)⟩

/-- The words that `cmd_ready` may hold are the words of RENDER with a digit 0 to 9 (R24, R39). -/
theorem isInRangeRender_iff (w : Word) :
    isInRangeRender (S := referenceShape) w = true ↔ ∃ d : BitVec 8, d.toNat ≤ 9 ∧ w = encode (.render d) := by
  rw [isInRangeRender_iff_decode, commandWord_reference]
  constructor
  · rintro ⟨d, hd, hlt⟩
    exact ⟨d, Nat.le_of_lt_succ hlt, (encode_of_decode hd).symm⟩
  · rintro ⟨d, hle, rfl⟩
    exact ⟨d, decode_encode_render d, Nat.lt_succ_of_le hle⟩

/-- Out of reset `cmd_ready` is 0 exactly for a presented in-range RENDER while the SPE is busy (R24). -/
theorem cmdReady_eq_false_iff (v : Bool) (s : Shaped.State S) :
    cmdReady true v s = false ↔ v = true ∧ s.txst ≠ .idle ∧ ∃ w, s.cmds.head? = some w ∧ isInRangeRender w = true := by
  cases h : s.cmds.head? <;> simp [cmdReady, Shaped.State.busy, h, and_assoc]

end Sys2Proof.Machine
end

section
/-! SUPPORT. What a HOST step can do (spec/40_control.md R48): the states it can lead to, where it holds, and what it does
to the parameters, the channels and ILL. -/

namespace Sys2Proof.Machine

variable {S : Config.Shape}

/-- Every state a HOST step can lead to: the state as it was, where no word is presented or it is held; the exception; an
ACK; a response and nothing else; a frame started (R48). -/
theorem hostStep_next_cases {s t : Shaped.State S} (h : hostStep s = .next t) :
    (t = s ∧ (s.cmds = [] ∨ cmdReady true true s = false)) ∨
    (∃ w rest r, s.cmds = w :: rest ∧ decode (commandWord w) = .error r ∧ t = raiseIllegalCommand s) ∨
    (∃ w rest c, s.cmds = w :: rest ∧ decode (commandWord w) = .ok (.ack c) ∧
      t = respond (zextRsp (bitOf (s.chan c).pend)) (setPend c false s)) ∨
    (∃ v, t = respond v s) ∨ (∃ g, t = respond 1 (startFrame g s)) := by
  obtain ⟨hc, e⟩ | ⟨w, rest, r, hc, hd, e⟩ | ⟨w, rest, i, hc, hd, e⟩ := hostStep_cases_of s <;>
    rw [e] at h
  · cases h
    exact .inl ⟨rfl, .inl hc⟩
  · cases h
    exact .inr (.inl ⟨w, rest, r, hc, hd, rfl⟩)
  have respond_only {v : S.Rsp} (e : execOf i s = .next (respond v s)) : ∃ v, t = respond v s := by
    rw [e] at h
    cases h
    exact ⟨v, rfl⟩
  obtain ⟨_, e⟩ | ⟨_, e⟩ | ⟨c, rfl, e⟩ | ⟨_, _, e⟩ | ⟨_, _, _, _, e⟩ | ⟨_, _, _, e⟩ | ⟨d, g, rfl, hg, hbusy, e⟩ |
    ⟨_, g, _, _, _, e⟩ := execOf_cases i s
  · exact .inr (.inr (.inr (.inl (respond_only e))))
  · exact .inr (.inr (.inr (.inl (respond_only e))))
  · rw [e] at h
    cases h
    exact .inr (.inr (.inl ⟨w, rest, c, hc, hd, rfl⟩))
  · exact .inr (.inr (.inr (.inl (respond_only e))))
  · exact .inr (.inr (.inr (.inl (respond_only e))))
  · exact .inr (.inr (.inr (.inl (respond_only e))))
  · rw [e] at h
    cases h
    have hr : isInRangeRender w = true :=
      (isInRangeRender_iff_decode w).mpr ⟨d, hd, (digitInRange_isSome_iff d).mp (by rw [hg]; rfl)⟩
    exact .inl ⟨rfl, .inr ((cmdReady_eq_false_iff true s).mpr ⟨rfl, hbusy, w, by rw [hc]; rfl, hr⟩)⟩
  · rw [e] at h
    cases h
    exact .inr (.inr (.inr (.inr ⟨g, rfl⟩)))

/-- An in-range RENDER while the SPE is busy is held (R73). -/
theorem execOf_render_held {s : Shaped.State S} {d : BitVec 8} (hd : d.toNat < S.nGlyph)
    (hbusy : s.txst ≠ .idle) : execOf (.render d) s = .next s := by
  simp [execOf, execRender, digitInRange, hd, Shaped.State.busy, hbusy, hold]

/-- Where `cmd_ready` is 0 with a word presented, the HOST step changes nothing (R24, R27). -/
theorem hostStep_of_not_cmdReady {s : Shaped.State S} (h : cmdReady true true s = false) :
    hostStep s = .next s := by
  obtain ⟨_, hbusy, w, hw, hr⟩ := (cmdReady_eq_false_iff true s).mp h
  obtain ⟨rest, hc⟩ := List.head?_eq_some_iff.mp hw
  obtain ⟨d, hd, hlt⟩ := (isInRangeRender_iff_decode w).mp hr
  obtain ⟨h0, _⟩ | ⟨_, _, _, h1, he, _⟩ | ⟨_, _, _, h1, hi, e⟩ := hostStep_cases_of s
  · cases hc.symm.trans h0
  · cases hc.symm.trans h1
    cases hd.symm.trans he
  · cases hc.symm.trans h1
    cases hd.symm.trans hi
    exact e.trans (execOf_render_held hlt hbusy)

/-- A HOST step leaves the parameters alone (R25). -/
theorem hostStep_config {s t : Shaped.State S} (h : hostStep s = .next t) : t.config = s.config := by
  obtain ⟨rfl, _⟩ | ⟨_, _, _, _, _, rfl⟩ | ⟨_, _, _, _, _, rfl⟩ | ⟨_, rfl⟩ | ⟨_, rfl⟩ := hostStep_next_cases h <;> simp

/-- A HOST step that leads from `s` to `t` answers an ACK of channel `b`, which clears PEND[b] and keeps TS[b] (R56). -/
structure AckAnswered (s t : State) (b : Button) : Prop where
  presented : s.cmds.head? = some (encode (.ack b))
  rspData : t.rspData = zextRsp (bitOf (s.chan b).pend)
  responses : t.responses = s.responses ++ [zextRsp (bitOf (s.chan b).pend)]
  pend : (t.chan b).pend = false
  ts : (t.chan b).ts = (s.chan b).ts

/-- A HOST step touches a channel by its ACK only (R56). -/
theorem hostStep_chan {s t : State} (b : Button) (h : hostStep s = .next t) : AckAnswered s t b ∨ t.chan b = s.chan b := by
  obtain ⟨rfl, _⟩ | ⟨_, _, _, _, _, rfl⟩ | ⟨w, rest, c, hc, hd, rfl⟩ | ⟨_, rfl⟩ | ⟨_, rfl⟩ := hostStep_next_cases h
  case inr.inr.inl =>
    by_cases hb : b = c
    · subst hb
      have hw : w = encode (.ack b) := by
        rw [commandWord_reference] at hd
        exact (encode_of_decode hd).symm
      exact .inl ⟨by rw [hc, hw]; rfl, by simp, by simp, by simp, by simp⟩
    · exact .inr (by simp [chan_setPend_other _ _ hb])
  all_goals exact .inr (by simp)

/-- A HOST step that leads from `s` to `t` takes the exception for an illegal word: ILL is set, the response is 0 (R83). -/
structure IllegalAnswered (s t : State) : Prop where
  presented : ∃ w : Word, s.cmds.head? = some w ∧ legalWord w = false
  ill : t.ill = true
  responses : t.responses = s.responses ++ [0]

/-- A HOST step touches ILL by the exception only (R16, R83). -/
theorem hostStep_ill {s t : State} (h : hostStep s = .next t) : IllegalAnswered s t ∨ t.ill = s.ill := by
  obtain ⟨rfl, _⟩ | ⟨w, _, r, hc, hd, rfl⟩ | ⟨_, _, _, _, _, rfl⟩ | ⟨_, rfl⟩ | ⟨_, rfl⟩ := hostStep_next_cases h
  case inr.inl =>
    rw [commandWord_reference] at hd
    exact .inl ⟨⟨w, by rw [hc]; rfl, (legalWord_eq_false_iff w).mpr ⟨r, hd⟩⟩, by simp, by simp⟩
  all_goals exact .inr (by simp)

end Sys2Proof.Machine
end

section
/-! SUPPORT. What a turn and a step of the machine can do to the parameters, the channels and ILL (spec/10_state.md). -/

namespace Sys2Proof.Machine

variable {S : Config.Shape}

/-- A turn of any agent leaves the parameters alone, a cycle with reset too (R25). -/
theorem takeTurn_config {x : Shaped.Turn S} {s t : Shaped.State S} (h : takeTurn x s = .next t) :
    t.config = s.config := by
  cases x with
  | host => exact hostStep_config h
  | btn b => cases h; simp
  | clock n => cases h; simp
  | spe => cases h; simp
  | cycle io =>
    obtain ⟨_, rfl⟩ | ⟨_, u, rfl, ⟨_, hu⟩ | ⟨_, rfl⟩⟩ := cycle_cases io s t h
    · simp
    · simpa using hostStep_config hu
    · simp

/-- The step with turn `x` from `s` to `t` is an accepted edge of channel `b`: an edge turn, or a cycle without reset whose
edge detector fires; TS[b] takes its stamp (R53, R54). -/
def AcceptedEdge (x : Turn) (s t : State) (b : Button) : Prop :=
  (x = .btn b ∧ s.config.debounceMs < (s.now - (s.chan b).ts).toNat ∧ (t.chan b).ts = s.now) ∨
  (∃ io, x = .cycle io ∧ io.rstN = true ∧ (s.chan b).falling = true ∧
    s.config.debounceMs < (io.nowMs - (s.chan b).ts).toNat ∧ (t.chan b).ts = io.nowMs)

/-- PEND and TS of channel `b` are in `t` as in `s`. -/
def ChannelKept (s t : State) (b : Button) : Prop :=
  (t.chan b).pend = (s.chan b).pend ∧ (t.chan b).ts = (s.chan b).ts

/-- Everything the block's part of a cycle can do to PEND and TS of a channel: an accepted edge, or nothing (R26, R52). -/
theorem clockBlock_pend_ts (io : CycleIn) (s0 s : State) (b : Button) :
    ((s0.chan b).falling = true ∧ accepts s0 b io.nowMs = true ∧
      ((clockBlock io s0 s).chan b).pend = true ∧ ((clockBlock io s0 s).chan b).ts = io.nowMs) ∨
    ChannelKept s (clockBlock io s0 s) b := by
  simp only [ChannelKept, clockBlock_chan, sample_pend, sample_ts]
  split
  · rename_i h
    obtain ⟨hf, ha⟩ := Bool.and_eq_true_iff.mp h
    exact .inl ⟨hf, ha, rfl, rfl⟩
  · exact .inr ⟨rfl, rfl⟩

/-- Everything a turn can do to PEND and TS of a channel: an accepted edge sets PEND and writes TS, an answered ACK clears
PEND, a reset writes both, and no other turn touches them (R13, R14, R60). -/
theorem takeTurn_chan_cases {x : Turn} {s t : State} (b : Button) (h : takeTurn x s = .next t) :
    (x.isReset = true ∧ t.chan b = channelReset s.config) ∨
    ((t.chan b).pend = true ∧ AcceptedEdge x s t b) ∨ AckAnswered s t b ∨ ChannelKept s t b := by
  cases x with
  | host =>
    obtain ha | hk := hostStep_chan b h
    · exact .inr (.inr (.inl ha))
    · exact .inr (.inr (.inr ⟨by rw [hk], by rw [hk]⟩))
  | btn b' =>
    cases h
    by_cases hb : b = b'
    · subst hb
      cases ha : accepts s b s.now with
      | true =>
        have hc : (edge b s.now s).chan b = (s.chan b).latchEdge s.now := by simp [chan_edge_same, ha]
        exact .inr (.inl ⟨by simp [hc], .inl ⟨rfl, (accepts_iff s b s.now).mp ha, by simp [hc]⟩⟩)
      | false => exact .inr (.inr (.inr (by simp [ChannelKept, chan_edge_same, ha])))
    · exact .inr (.inr (.inr (by simp [ChannelKept, chan_edge_other _ _ hb])))
  | clock n => cases h; exact .inr (.inr (.inr (by simp [ChannelKept])))
  | spe => cases h; exact .inr (.inr (.inr (by simp [ChannelKept])))
  | cycle io =>
    obtain ⟨hr, rfl⟩ | ⟨hr, u, rfl, hu⟩ := cycle_cases io s t h
    · exact .inl ⟨by simp [Shaped.Turn.isReset, hr], by simp⟩
    obtain ⟨hf, ha, hp, hts⟩ | ⟨hp, hts⟩ := clockBlock_pend_ts io (beginCycle io s) u b
    · rw [chan_beginCycle] at hf
      rw [accepts_beginCycle, accepts_iff] at ha
      exact .inr (.inl ⟨hp, .inr ⟨io, rfl, hr, hf, ha, hts⟩⟩)
    obtain ⟨_, hu⟩ | ⟨_, rfl⟩ := hu
    · obtain ack | hk := hostStep_chan b hu
      · obtain ⟨h1, h2, h3, h4, h5⟩ := ack
        exact .inr (.inr (.inl ⟨h1, by simpa using h2, by simpa using h3, hp.trans h4, by simpa using hts.trans h5⟩))
      · exact .inr (.inr (.inr ⟨by simp [hp, hk], by simp [hts, hk]⟩))
    · exact .inr (.inr (.inr ⟨by simpa using hp, by simpa using hts⟩))

/-- Everything a turn can do to ILL: an illegal word sets it, a reset clears it, no other turn touches it (R16). -/
theorem takeTurn_ill_cases {x : Turn} {s t : State} (h : takeTurn x s = .next t) :
    (x.isReset = true ∧ t.ill = false) ∨ IllegalAnswered s t ∨ t.ill = s.ill := by
  cases x with
  | host => exact .inr (hostStep_ill h)
  | btn b => cases h; exact .inr (.inr (by simp))
  | clock n => cases h; exact .inr (.inr (by simp))
  | spe => cases h; exact .inr (.inr (by simp))
  | cycle io =>
    obtain ⟨hr, rfl⟩ | ⟨_, u, rfl, ⟨_, hu⟩ | ⟨_, rfl⟩⟩ := cycle_cases io s t h
    · exact .inl ⟨by simp [Shaped.Turn.isReset, hr], by simp⟩
    · obtain ⟨hw, hi, hrs⟩ | hk := hostStep_ill hu
      · exact .inr (.inl ⟨hw, by simpa using hi, by simpa using hrs⟩)
      · exact .inr (.inr (by simpa using hk))
    · exact .inr (.inr (by simp))

/-- Everything a step can do to PEND and TS of a channel, told by the turn of the state (R13, R14, R60). -/
theorem step_chan_cases {s t : State} (b : Button) (h : step s = .next t) :
    ((currentTurn s).isReset = true ∧ t.chan b = channelReset s.config) ∨
    ((t.chan b).pend = true ∧ AcceptedEdge (currentTurn s) s t b) ∨ AckAnswered s t b ∨ ChannelKept s t b := by
  obtain ⟨rest, e⟩ := step_eq s
  obtain hr | ⟨hp, ha⟩ | ⟨hw, hdata, hrsps, hclear, hstamp⟩ | hk :=
    takeTurn_chan_cases b (e ▸ h)
  · exact .inl hr
  · exact .inr (.inl ⟨hp, by simpa [AcceptedEdge] using ha⟩)
  · rw [chan_setTurns] at hdata hrsps hstamp
    exact .inr (.inr (.inl ⟨hw, hdata, hrsps, hclear, hstamp⟩))
  · exact .inr (.inr (.inr (by simpa [ChannelKept] using hk)))

/-- Everything a step can do to ILL, told by the turn of the state (R16). -/
theorem step_ill_cases {s t : State} (h : step s = .next t) :
    ((currentTurn s).isReset = true ∧ t.ill = false) ∨ IllegalAnswered s t ∨ t.ill = s.ill := by
  obtain ⟨rest, e⟩ := step_eq s
  obtain hr | ⟨hw, hi, hrs⟩ | hk := takeTurn_ill_cases (e ▸ h)
  · exact .inl hr
  · exact .inr (.inl ⟨hw, hi, hrs⟩)
  · exact .inr (.inr hk)

end Sys2Proof.Machine
end

section
/-! SUPPORT. The statements on the state as a whole (spec/10_state.md): the parameters, the handshake of the HOST, PEND, TS,
ILL and irq. -/

namespace Sys2Proof.Machine

/-- Settles O11: every step is a turn, and no turn writes the parameters. -/
theorem configurationNeverChanges : Obligations.ConfigurationNeverChanges := by
  intro s t h
  obtain ⟨rest, e⟩ := step_eq s
  exact (takeTurn_config (e ▸ h)).trans (setTurns_config rest s)

/-- Settles O14, from the words that `isInRangeRender` accepts. -/
theorem cmdReadyLowOnlyForHeldRender : Obligations.CmdReadyLowOnlyForHeldRender := by
  intro s v
  refine ⟨rfl, (cmdReady_eq_false_iff v s).trans (and_congr_right fun _ => and_congr_right fun _ => ?_)⟩
  constructor
  · rintro ⟨w, hw, hr⟩
    obtain ⟨d, hd, rfl⟩ := (isInRangeRender_iff w).mp hr
    exact ⟨d, hd, hw⟩
  · rintro ⟨d, hd, hw⟩
    exact ⟨_, hw, (isInRangeRender_iff _).mpr ⟨d, hd, rfl⟩⟩

/-- Settles O13: where `cmd_ready` is 0 the word is held; where it is 1, every outcome of a HOST step is a response. -/
theorem hostStepAcceptsOrHolds : Obligations.HostStepAcceptsOrHolds := by
  intro s w rest hc
  cases hr : cmdReady true true s with
  | false => exact ⟨s, hostStep_of_not_cmdReady hr, .inl ⟨rfl, rfl⟩⟩
  | true =>
    obtain ⟨t, ht⟩ := hostStep_next s
    refine ⟨t, ht, .inr ⟨rfl, ?_⟩⟩
    obtain ⟨_, h0 | h0⟩ | ⟨_, _, _, _, _, rfl⟩ | ⟨_, _, _, _, _, rfl⟩ | ⟨_, rfl⟩ | ⟨_, rfl⟩ := hostStep_next_cases ht
    · cases hc.symm.trans h0
    · cases hr.symm.trans h0
    all_goals simp [hc]

/-- Settles O28: of all that a step can do to a channel, the accepted edge alone sets PEND. -/
theorem pendRisesOnlyByAcceptedEdge : Obligations.PendRisesOnlyByAcceptedEdge := by
  intro s t b h h0 h1
  obtain ⟨_, hr⟩ | ⟨_, hedge⟩ | ack | ⟨hp, _⟩ := step_chan_cases b h
  · rw [hr] at h1
    cases h1
  · exact hedge
  · cases h1.symm.trans ack.pend
  · cases h1.symm.trans (hp.trans h0)

/-- Settles O29: of all that a step can do to a channel, reset and the answered ACK alone clear PEND, and the ACK answers
the flag as it was. -/
theorem pendFallsOnlyByAckOrReset : Obligations.PendFallsOnlyByAckOrReset := by
  intro s t b h h1 h0
  obtain ⟨hr, _⟩ | ⟨hp, _⟩ | ack | ⟨hp, _⟩ := step_chan_cases b h
  · exact .inl hr
  · cases h0.symm.trans hp
  · have one : zextRsp (S := referenceShape) (bitOf (s.chan b).pend) = 1 := by rw [h1]; rfl
    exact .inr ⟨ack.presented, ack.rspData.trans one, one ▸ ack.responses⟩
  · cases h0.symm.trans (hp.trans h1)

/-- Settles O30: of all that a step but a reset can do to a channel, the accepted edge alone writes TS, and it sets PEND. -/
theorem timestampChangesOnlyByAcceptedEdge : Obligations.TimestampChangesOnlyByAcceptedEdge := by
  intro s t b h hne hnr
  obtain ⟨hr, _⟩ | ⟨hp, hedge⟩ | ack | ⟨_, hts⟩ := step_chan_cases b h
  · cases hr.symm.trans hnr
  · exact ⟨hp, hedge⟩
  · exact absurd ack.ts hne
  · exact absurd hts hne

/-- Settles O31: of all that a step can do to ILL, the illegal word alone sets it and reset alone clears it. -/
theorem illIsStickyUntilReset : Obligations.IllIsStickyUntilReset := by
  refine ⟨?_, ?_, ?_, statusWord_bit4, rfl⟩
  · intro s t h hnr hs
    obtain ⟨hr, _⟩ | illegal | hk := step_ill_cases h
    · cases hr.symm.trans hnr
    · exact illegal.ill
    · exact hk.trans hs
  · intro s t h hs ht
    obtain ⟨_, hi⟩ | illegal | hk := step_ill_cases h
    · cases ht.symm.trans hi
    · obtain ⟨w, hw, hl⟩ := illegal.presented
      exact ⟨w, hw, hl, illegal.responses⟩
    · cases ht.symm.trans (hk.trans hs)
  · intro s w rest hc hl
    obtain ⟨r, hd⟩ := (legalWord_eq_false_iff w).mp hl
    exact ⟨_, hostStep_illegal hc hd, rfl⟩

/-- Settles O32: irq is the OR of the flags that bits 1 and 0 of the status word show; an accepted edge sets one. -/
theorem irqFollowsPendingFlags : Obligations.IrqFollowsPendingFlags := by
  refine ⟨fun s => ?_, fun s => ?_, fun s b n h => ?_, rfl⟩
  · exact Bool.or_eq_true_iff
  · rw [statusWord_pendingBits, irq]
    cases s.chA.pend <;> cases s.chB.pend <;> decide
  · refine (irq_eq_true_iff _).mpr ⟨b, ?_⟩
    rw [chan_edge_same, if_pos ((accepts_iff s b n).mpr h)]
    rfl

end Sys2Proof.Machine
end

section
/-! SUPPORT. One clock cycle (spec/20_memory.md R26): what the HOST step leaves as it was at the start of the cycle, and what
the rest of the block does from there. -/

namespace Sys2Proof

/-- The words of ACK and RDTS decode to them on both channels (R40). -/
theorem decode_encode_ack (b : Button) : decode (encode (.ack b)) = .ok (.ack b) := by cases b <;> decide
theorem decode_encode_rdts (b : Button) : decode (encode (.rdts b)) = .ok (.rdts b) := by cases b <;> decide

end Sys2Proof

namespace Sys2Proof.Machine

variable {S : Config.Shape}

/-- A cycle without reset that presents a command is the HOST step and then the rest of the block. -/
theorem cycle_of_cmdValid {io : Shaped.CycleIn S} {s u : Shaped.State S} (hr : io.rstN = true)
    (hv : io.cmdValid = true) (hu : hostStep (beginCycle io s) = .next u) :
    cycle io s = .next (clockBlock io (beginCycle io s) u) := by
  simp [cycle, hr, hv, hu]

/-- A cycle without reset that presents no command is the rest of the block alone. -/
theorem cycle_of_not_cmdValid {io : Shaped.CycleIn S} {s : Shaped.State S} (hr : io.rstN = true)
    (hv : io.cmdValid = false) : cycle io s = .next (clockBlock io (beginCycle io s) (beginCycle io s)) := by
  simp [cycle, hr, hv]

@[simp] theorem clockBlock_rspValid (io : Shaped.CycleIn S) (s0 s : Shaped.State S) :
    (clockBlock io s0 s).rspValid = s.rspValid := by simp [clockBlock]

/-- A HOST step leaves the SPE alone while it is busy: an in-range RENDER is held then (R73). -/
theorem hostStep_txst_of_busy {s t : Shaped.State S} (hb : s.txst ≠ .idle) (h : hostStep s = .next t) :
    t.txst = s.txst := by
  obtain ⟨_, e⟩ | ⟨_, _, _, _, _, e⟩ | ⟨_, _, i, _, _, e⟩ := hostStep_cases_of s
  · cases e.symm.trans h; rfl
  · cases e.symm.trans h; rfl
  obtain ⟨_, e'⟩ | ⟨_, e'⟩ | ⟨_, _, e'⟩ | ⟨_, _, e'⟩ | ⟨_, _, _, _, e'⟩ | ⟨_, _, _, e'⟩ | ⟨_, _, _, _, _, e'⟩ |
    ⟨_, _, _, _, hidle, _⟩ := execOf_cases i s
  case inr.inr.inr.inr.inr.inr.inr => exact absurd hidle hb
  all_goals cases (e.trans e').symm.trans h; rfl

/-- What the SPE decides on at the start `s0` of a cycle is in `s` as it was: its counters, and TXST unless it was IDLE
(R26). -/
structure SpeSeesStart (s0 s : Shaped.State S) : Prop where
  config : s.config = s0.config
  pcnt : s.pcnt = s0.pcnt
  lcnt : s.lcnt = s0.lcnt
  txst : s0.txst ≠ .idle → s.txst = s0.txst

/-- What all the agents after the HOST decide on at the start `s0` of a cycle is in `s` as it was: NOW and the time stamps,
for the debounce test, too (R26, R54). -/
structure AgentsSeeStart (s0 s : Shaped.State S) : Prop extends SpeSeesStart s0 s where
  now : s.now = s0.now
  ts : ∀ b, (s.chan b).ts = (s0.chan b).ts

theorem AgentsSeeStart.refl (s : Shaped.State S) : AgentsSeeStart s s :=
  ⟨⟨rfl, rfl, rfl, fun _ => rfl⟩, rfl, fun _ => rfl⟩

/-- An ACK leaves both time stamps alone (R56). -/
@[simp] theorem chan_setPend_ts (c : Button) (v : Bool) (s : Shaped.State S) (b : Button) :
    ((setPend c v s).chan b).ts = (s.chan b).ts := by
  cases b <;> cases c <;> rfl

/-- The agents after the HOST decide as on the state at the start of the cycle. -/
theorem hostStep_agentsSeeStart {s t : Shaped.State S} (h : hostStep s = .next t) : AgentsSeeStart s t := by
  have htxst := fun hb => hostStep_txst_of_busy hb h
  obtain ⟨rfl, _⟩ | ⟨_, _, _, _, _, rfl⟩ | ⟨_, _, _, _, _, rfl⟩ | ⟨_, rfl⟩ | ⟨_, rfl⟩ := hostStep_next_cases h <;>
    exact ⟨⟨by simp, by simp, by simp, htxst⟩, by simp, by simp⟩

/-- Every cycle without reset goes on: by the HOST step to `u` if it presents a command, with `u` the start of the cycle if
not, and then by the rest of the block (R26). -/
theorem cycle_next {io : Shaped.CycleIn S} (s : Shaped.State S) (hr : io.rstN = true) :
    ∃ u, cycle io s = .next (clockBlock io (beginCycle io s) u) ∧ AgentsSeeStart (beginCycle io s) u ∧
      (io.cmdValid = true → hostStep (beginCycle io s) = .next u) ∧ (io.cmdValid = false → u = beginCycle io s) := by
  cases hv : io.cmdValid with
  | false => exact ⟨_, cycle_of_not_cmdValid hr hv, .refl _, nofun, fun _ => rfl⟩
  | true =>
    obtain ⟨u, hu⟩ := hostStep_next (beginCycle io s)
    exact ⟨u, cycle_of_cmdValid hr hv hu, hostStep_agentsSeeStart hu, fun _ => hu, nofun⟩

/-- The debounce test of the cycle is the one on the state at its start (R26). -/
theorem AgentsSeeStart.accepts_eq {s0 s : Shaped.State S} (h : AgentsSeeStart s0 s) (b : Button) (n : S.Stamp) :
    accepts s b n = accepts s0 b n := by
  unfold accepts Shaped.Channel.delta
  rw [h.config, h.ts b]

@[simp] theorem edgeInCycle_now (s0 : Shaped.State S) (b : Button) (n : S.Stamp) (s : Shaped.State S) :
    (edgeInCycle s0 b n s).now = s.now := by
  obtain ⟨_, e⟩ | ⟨_, e⟩ := edgeInCycle_cases s0 b n s <;> rw [e]
  rfl

/-- An edge of one channel leaves the debounce test of the other one as it was (R59). -/
theorem accepts_edgeInCycle_other {b b' : Button} (hb : b' ≠ b) (s0 : Shaped.State S) (n n' : S.Stamp)
    (s : Shaped.State S) : accepts (edgeInCycle s0 b n s) b' n' = accepts s b' n' := by
  obtain ⟨_, e⟩ | ⟨_, e⟩ := edgeInCycle_cases s0 b n s <;> rw [e]
  simp only [accepts, chan_setChan_other s _ hb, setChan_config]

/-- A channel whose detector fires takes its own edge step in the cycle (R53). -/
theorem edgeInCycle_of_falling {s0 s : Shaped.State S} {b : Button} {n : S.Stamp} (hf : (s0.chan b).falling = true)
    (ha : accepts s b n = accepts s0 b n) : edgeInCycle s0 b n s = edge b n s := by
  simp only [edgeInCycle, edge, edgeFrom, hf, ha, if_true]

theorem edgeInCycle_of_not_falling {s0 s : Shaped.State S} {b : Button} {n : S.Stamp}
    (hf : (s0.chan b).falling = false) : edgeInCycle s0 b n s = s := by
  simp [edgeInCycle, hf]

/-- The debouncer's part of a cycle leaves alone what the SPE decides on. -/
theorem SpeSeesStart.after_debounce {s0 s : Shaped.State S} (h : SpeSeesStart s0 s) (io : Shaped.CycleIn S) :
    SpeSeesStart s0 (debounceInCycle io s0 s) := by
  obtain ⟨hcfg, hp, hl, ht⟩ := h
  exact ⟨by simpa using hcfg, by simpa using hp, by simpa using hl, by simpa using ht⟩

end Sys2Proof.Machine
end

section
/-! SUPPORT. The transaction level (spec/20_memory.md R6, R28): what the steps of the agents do to the view of a state depends
on its view alone. -/

namespace Sys2Proof.Shaped

variable {S : Config.Shape}

/-- `s` with everything that its view does not show taken from `x`. -/
def State.withHidden (s x : State S) : State S :=
  { s with
    chA := { s.chA with sync := x.chA.sync, lvl := x.chA.lvl }
    chB := { s.chB with sync := x.chB.sync, lvl := x.chB.lvl }
    lcnt := x.lcnt
    pcnt := x.pcnt
    dout := x.dout
    rspValid := x.rspValid
    ltBefore := x.ltBefore
    turns := x.turns }

end Sys2Proof.Shaped

namespace Sys2Proof.Machine

variable {S : Config.Shape}

/-- Two states of the same view differ only in what the view does not show. -/
theorem eq_withHidden_of_view_eq {s x : Shaped.State S} (h : view x = view s) : x = s.withHidden x := by
  obtain ⟨_, ⟨_, _, _, _⟩, ⟨_, _, _, _⟩, _, _, _, _, _, _, _, _, _, _, _, _, _, _, _, _⟩ := s
  cases h
  rfl

/-- An edge step sees no more of a state than its view. -/
theorem view_edge_withHidden (b : Button) (n : S.Stamp) (s x : Shaped.State S) :
    view (edge b n (s.withHidden x)) = view (edge b n s) := by
  have ha : accepts (s.withHidden x) b n = accepts s b n := by cases b <;> rfl
  simp only [edge, edgeFrom, ha]
  split
  · cases b <;> rfl
  · rfl

/-- The advance after a bit sees no more of a state than its view (R75). -/
theorem view_advance_withHidden (s x : Shaped.State S) :
    view (advance (s.withHidden x)) = view (advance s) := by
  have hb : (s.withHidden x).bidx = s.bidx := rfl
  have hw : (s.withHidden x).widx = s.widx := rfl
  simp only [advance, hb, hw]
  split
  · rfl
  · split <;> rfl

/-- An SPE step sees no more of a state than its view. -/
theorem view_speStep_withHidden (s x : Shaped.State S) : view (speStep (s.withHidden x)) = view (speStep s) := by
  have ht : (s.withHidden x).txst = s.txst := rfl
  obtain ⟨h, e⟩ | ⟨h, e⟩ | ⟨h, e⟩ := speStep_cases s <;> rw [e]
  · rw [speStep, ht, h]; rfl
  · rw [speStep, ht, h]
    exact view_advance_withHidden (emit (.bit (currentBit s)) s) x
  · rw [speStep, ht, h]; rfl

/-- A command's meaning sees no more of a state than its view (R48). -/
theorem view_execOf_withHidden {i : Instr} {s t : Shaped.State S} (x : Shaped.State S) (h : execOf i s = .next t) :
    ∃ t', execOf i (s.withHidden x) = .next t' ∧ view t' = view t := by
  cases i with
  | nop => cases h; exact ⟨_, rfl, rfl⟩
  | rdstat => cases h; exact ⟨_, rfl, rfl⟩
  | ack c => cases h; cases c <;> exact ⟨_, rfl, rfl⟩
  | rdts c => cases h; cases c <;> exact ⟨_, rfl, rfl⟩
  | encode pr pg pb => cases h; exact ⟨_, rfl, rfl⟩
  | render d =>
    have hb : (s.withHidden x).busy = s.busy := rfl
    simp only [execOf, execRender, hb] at h ⊢
    cases hd : digitInRange (S := S) d with
    | none => simp only [hd] at h ⊢; cases h; exact ⟨_, rfl, rfl⟩
    | some g => cases hs : s.busy <;> simp only [hd, hs] at h ⊢ <;> cases h <;> exact ⟨_, rfl, rfl⟩

/-- A HOST step sees no more of a state than its view (R48). -/
theorem view_hostStep_withHidden {s t : Shaped.State S} (x : Shaped.State S) (h : hostStep s = .next t) :
    ∃ t', hostStep (s.withHidden x) = .next t' ∧ view t' = view t := by
  have hc : (s.withHidden x).cmds = s.cmds := rfl
  obtain ⟨hs, e⟩ | ⟨w, rest, r, hs, hd, e⟩ | ⟨w, rest, i, hs, hd, e⟩ := hostStep_cases_of s <;> rw [e] at h
  · cases h; exact ⟨s.withHidden x, by simp [hostStep, hc, hs], rfl⟩
  · cases h; exact ⟨raiseIllegalCommand (s.withHidden x), by simp [hostStep, hc, hs, hd], rfl⟩
  · simpa [hostStep, hc, hs, hd] using view_execOf_withHidden x h

/-- The step of an agent of the transaction level does the same to the view of every two states of one view (R6, R7). -/
theorem takeTurn_view {x : Shaped.Turn S} (hx : ∀ io, x ≠ .cycle io) {s s' t : Shaped.State S} (hs : view s' = view s)
    (h : takeTurn x s = .next t) : ∃ t', takeTurn x s' = .next t' ∧ view t' = view t := by
  rw [eq_withHidden_of_view_eq hs]
  cases x with
  | host => exact view_hostStep_withHidden s' h
  | btn b => cases h; exact ⟨_, rfl, view_edge_withHidden b s.now s s'⟩
  | clock n => cases h; exact ⟨_, rfl, rfl⟩
  | spe => cases h; exact ⟨_, rfl, view_speStep_withHidden s s'⟩
  | cycle io => exact absurd rfl (hx io)

/-- The turns, taken from `s` one after the other, lead to a state of this view. -/
def RunsToView (ts : List (Shaped.Turn S)) (s : Shaped.State S) (v : View S) : Prop :=
  ∃ u, runTurns ts s = .next u ∧ view u = v

@[simp] theorem runTurns_singleton (x : Shaped.Turn S) (s : Shaped.State S) : runTurns [x] s = takeTurn x s := by
  simp only [runTurns]
  cases takeTurn x s <;> rfl

/-- A run of one turn more: first the turns before it, then that turn. -/
theorem runTurns_concat {ts : List (Shaped.Turn S)} {s t : Shaped.State S} (x : Shaped.Turn S)
    (h : runTurns ts s = .next t) : runTurns (ts ++ [x]) s = takeTurn x t := by
  induction ts generalizing s with
  | nil => cases h; exact runTurns_singleton x _
  | cons y ys ih =>
    simp only [List.cons_append, runTurns] at h ⊢
    cases hy : takeTurn y s with
    | next s' => rw [hy] at h; exact ih h
    | fault r => cases r
    | refused r => rw [hy] at h; cases h

/-- One agent more, if it acts (`c`): its step may be told of any state that has the view reached so far. -/
theorem RunsToView.concat_if {ts : List (Shaped.Turn S)} {s t t' : Shaped.State S} (h : RunsToView ts s (view t))
    {x : Shaped.Turn S} (hx : ∀ io, x ≠ .cycle io) (c : Bool)
    (acts : c = true → ∃ u, takeTurn x t = .next u ∧ view u = view t') (rests : c = false → view t = view t') :
    RunsToView (ts ++ if c then [x] else []) s (view t') := by
  obtain ⟨u, hu, hv⟩ := h
  cases c with
  | false => exact ⟨u, by simpa using hu, hv.trans (rests rfl)⟩
  | true =>
    obtain ⟨t1, h1, hv1⟩ := acts rfl
    obtain ⟨u1, hu1, hvu⟩ := takeTurn_view hx hv h1
    exact ⟨u1, (runTurns_concat x hu).trans hu1, hvu.trans hv1⟩

end Sys2Proof.Machine
end

section
/-! SUPPORT. The statements on one clock cycle (spec/20_memory.md R26, R28). -/

namespace Sys2Proof.Machine

variable {S : Config.Shape}

@[simp] theorem view_driveLine (s : Shaped.State S) : view (driveLine s) = view s := rfl

/-- The view does not show the synchronisers, so the sampling does not change it (R52). -/
@[simp] theorem view_sampleLine (b : Button) (pin : Bool) (s : Shaped.State S) : view (sampleLine b pin s) = view s := by
  unfold sampleLine
  split <;> cases b <;> rfl

/-- In the debouncer's part of a cycle the view sees the two channels' edges alone. -/
theorem view_debounceInCycle (io : Shaped.CycleIn S) (s0 s : Shaped.State S) :
    view (debounceInCycle io s0 s) = view (edgeInCycle s0 .B io.nowMs (edgeInCycle s0 .A io.nowMs s)) := by
  simp [debounceInCycle]

/-- The SPE takes its step in a cycle at whose start a bit period or the gap is over (R74, R76). -/
theorem speInCycle_of_speFires {s0 s : Shaped.State S} (h : SpeSeesStart s0 s) (hf : speFires s0 = true) :
    speInCycle s0 s = speStep s := by
  obtain ⟨hcfg, hp, hl, ht⟩ := h
  cases hs : s0.txst with
  | idle => simp [speFires, hs] at hf
  | shift =>
    have hover : bitCycles s0.config ≤ s0.pcnt + 1 := by simpa [speFires, hs] using hf
    simp [speInCycle, speStep, ht, hs, hp, hcfg, hover]
  | latch =>
    have hover : s0.lcnt = 0 := by simpa [speFires, hs] using hf
    simp [speInCycle, speStep, ht, hs, hl, hover]

/-- In every other cycle the SPE moves a hidden counter at most (R75, R79). -/
theorem view_speInCycle_of_not_speFires {s0 s : Shaped.State S} (h : SpeSeesStart s0 s) (hf : speFires s0 = false) :
    view (speInCycle s0 s) = view s := by
  obtain ⟨hcfg, hp, hl, _⟩ := h
  cases hs : s0.txst with
  | idle => simp [speInCycle, hs]
  | shift =>
    have hrun : s.pcnt + 1 < bitCycles s.config := by simpa [speFires, hs, hp, hcfg] using hf
    simp only [speInCycle, hs, hrun, if_true]
    rfl
  | latch =>
    have hrun : s.lcnt ≠ 0 := by simpa [speFires, hs, hl] using hf
    simp only [speInCycle, hs, hrun, if_false]
    rfl

/-- A channel acts in a cycle exactly if its detector fires, by its own edge step (R53). -/
theorem RunsToView.concat_edge {ts : List (Shaped.Turn S)} {s s0 u : Shaped.State S} {n : S.Stamp}
    (h : RunsToView ts s (view u)) (b : Button) (hn : u.now = n) (ha : accepts u b n = accepts s0 b n) :
    RunsToView (ts ++ if (s0.chan b).falling then [.btn b] else []) s (view (edgeInCycle s0 b n u)) :=
  h.concat_if (x := .btn b) nofun _
    (fun hf => ⟨_, rfl, by rw [edgeInCycle_of_falling hf ha, hn]⟩)
    (fun hf => by rw [edgeInCycle_of_not_falling hf])

/-- The SPE acts in a cycle exactly if it is at the end of a bit period or of the gap, by its own step (R74, R76). -/
theorem RunsToView.concat_spe {ts : List (Shaped.Turn S)} {s s0 u : Shaped.State S}
    (h : RunsToView ts s (view u)) (hu : SpeSeesStart s0 u) :
    RunsToView (ts ++ if speFires s0 then [.spe] else []) s (view (speInCycle s0 u)) :=
  h.concat_if (x := .spe) nofun _
    (fun hf => ⟨_, rfl, by rw [speInCycle_of_speFires hu hf]⟩)
    (fun hf => (view_speInCycle_of_not_speFires hu hf).symm)

/-- The steps of A, B and the SPE after those that reached the view of `u`, the state after the HOST step, reach the view of
the whole cycle (R26). -/
theorem RunsToView.concat_block {ts : List (Shaped.Turn S)} {s s0 u : Shaped.State S} {io : Shaped.CycleIn S}
    (h : RunsToView ts s (view u)) (hu : AgentsSeeStart s0 u) (hnow : s0.now = io.nowMs) :
    RunsToView (ts ++ (if (s0.chan .A).falling then [.btn .A] else []) ++
        (if (s0.chan .B).falling then [.btn .B] else []) ++ (if speFires s0 then [.spe] else []))
      s (view (clockBlock io s0 u)) := by
  have hn : u.now = io.nowMs := hu.now.trans hnow
  have hA := h.concat_edge .A hn (hu.accepts_eq .A io.nowMs)
  have haccB := (accepts_edgeInCycle_other (b := .A) (b' := .B) (by decide) s0 io.nowMs io.nowMs u).trans
    (hu.accepts_eq .B io.nowMs)
  have hB := hA.concat_edge .B ((edgeInCycle_now s0 .A io.nowMs u).trans hn) haccB
  rw [← view_debounceInCycle] at hB
  exact hB.concat_spe (hu.toSpeSeesStart.after_debounce io)

/-- R26: the steps of the agents that act in a cycle, NOW being set first, reach the view of the whole cycle. -/
theorem cycle_runsToView {io : Shaped.CycleIn S} (s : Shaped.State S) (hr : io.rstN = true) :
    ∃ t, cycle io s = .next t ∧ RunsToView (.clock io.nowMs :: cycleTurns io s) s (view t) := by
  obtain ⟨u, ht, hu, presents, silent⟩ := cycle_next s hr
  have h0 : RunsToView [.clock io.nowMs] s (view (beginCycle io s)) := ⟨_, rfl, rfl⟩
  have hH : RunsToView _ s (view u) := h0.concat_if (x := .host) nofun io.cmdValid
    (fun hv => ⟨u, presents hv, rfl⟩) (fun hv => by rw [silent hv])
  have h := hH.concat_block hu rfl
  exact ⟨_, ht, h⟩

/-- A falling edge is detected exactly where the level was high and the second synchroniser stage is low (R15, R52). -/
theorem falling_iff (c : Shaped.Channel referenceShape) :
    c.falling = true ↔ c.lvl = true ∧ c.sync.getLsbD 1 = false := by
  simp [Shaped.Channel.falling, Shaped.Channel.syncOut]

theorem speFires_iff (s : Shaped.State S) :
    speFires s = true ↔ (s.txst = .shift ∧ bitCycles s.config ≤ s.pcnt + 1) ∨ (s.txst = .latch ∧ s.lcnt = 0) := by
  cases h : s.txst <;> simp [speFires, h]

/-- Settles O49: agent by agent, the steps reach the view of the cycle; the turns are those of the agents that act. -/
theorem cycleIsOrderedAgentSteps : Obligations.CycleIsOrderedAgentSteps := by
  intro io s hr
  obtain ⟨t, ht, u, hu, hv⟩ := cycle_runsToView s hr
  refine ⟨t, u, ht, hu, hv, ?_⟩
  simp only [cycleTurns, falling_iff, speFires_iff, chan_A, chan_B]

/-- A step that is a clock cycle presenting a command: the command's meaning at the start of the cycle, then the rest of
the block (R26, R48). -/
theorem step_cycle_cmd {s u : State} {io : CycleIn} {ts : List Turn} {i : Instr} {rest : List Word}
    (hts : s.turns = .cycle io :: ts) (hr : io.rstN = true) (hv : io.cmdValid = true) (hc : s.cmds = encode i :: rest)
    (hd : decode (encode i) = .ok i) (hu : exec i (beginCycle io (setTurns ts s)) = .next u) :
    step s = .next (clockBlock io (beginCycle io (setTurns ts s)) u) := by
  rw [step_cons s _ ts hts]
  exact cycle_of_cmdValid hr hv ((hostStep_legal (by simpa using hc) hd).trans hu)

/-- Settles O52: the response is made before the edge, and the edge is written after the ACK's clear. -/
theorem edgeSetWinsOverAckInOneCycle : Obligations.EdgeSetWinsOverAckInOneCycle := by
  intro s b io rest ts hts hr hv hc hf hlt
  have haccept : (((beginCycle io (setTurns ts s)).chan b).falling &&
      accepts (beginCycle io (setTurns ts s)) b io.nowMs) = true := by
    simp [hf, (accepts_iff s b io.nowMs).mpr hlt]
  refine ⟨_, step_cycle_cmd hts hr hv hc (decode_encode_ack b) rfl, by simp, ?_, ?_, ?_⟩
  · rw [clockBlock_rspData, respond_rspData, chan_beginCycle, chan_setTurns]
    cases (s.chan b).pend <;> rfl
  · rw [clockBlock_chan, if_pos haccept]
    rfl
  · rw [clockBlock_chan, if_pos haccept]
    rfl

/-- Settles O53: the response is made on the state at the start of the cycle, and the rest of the block keeps it. -/
theorem readsInOneCycleSeeItsStart : Obligations.ReadsInOneCycleSeeItsStart := by
  intro s io rest ts hts hr hv
  constructor
  · intro hc
    exact ⟨_, step_cycle_cmd hts hr hv hc (by decide) rfl, by simp, by rw [clockBlock_rspData]; rfl⟩
  · intro b hc
    exact ⟨_, step_cycle_cmd hts hr hv hc (decode_encode_rdts b) rfl, by simp, by simp⟩

end Sys2Proof.Machine
end

section
/-! SUPPORT. The statements on the encoding (spec/30_encoding.md R38, R39, R43): the decoder undoes the encoder, and it
rejects by case; the opcode of a word picks its row. -/

namespace Sys2Proof

/-- The middle one of three fields side by side, read by its place. -/
theorem extractLsb'_append_middle {u v k : Nat} (a : BitVec u) (b : BitVec v) (c : BitVec k) :
    (a ++ (b ++ c)).extractLsb' k v = b := by
  rw [BitVec.extractLsb'_append_eq_of_add_le (by omega), BitVec.extractLsb'_append_eq_left]

/-- The word of ENCODE decodes to it at every value of its three fields (R41). -/
theorem decode_encode_encode (pr pg pb : Pct) : decode (encode (.encode pr pg pb)) = .ok (.encode pr pg pb) := by
  rw [encode_encode_eq_append]
  have hop : (0x4#4 ++ (0#7 ++ (pr ++ (pg ++ pb)))).extractLsb' 28 4 = 0x4#4 := BitVec.extractLsb'_append_eq_left
  have hres : (0x4#4 ++ (0#7 ++ (pr ++ (pg ++ pb)))).extractLsb' 21 7 = 0#7 := extractLsb'_append_middle ..
  unfold decode
  rw [hop]
  refine checkReserved_eq_ok_iff.mpr ⟨hres, ?_⟩
  congr
  · rw [BitVec.extractLsb'_append_eq_of_add_le (by decide)]
    exact extractLsb'_append_middle ..
  · rw [BitVec.extractLsb'_append_eq_of_add_le (by decide), BitVec.extractLsb'_append_eq_of_add_le (by decide)]
    exact extractLsb'_append_middle ..
  · rw [BitVec.extractLsb'_append_eq_of_add_le (by decide), BitVec.extractLsb'_append_eq_of_add_le (by decide),
      BitVec.extractLsb'_append_eq_of_add_le (by decide)]
    exact BitVec.extractLsb'_append_eq_right

/-- Settles O1: by the command; ENCODE, whose operands fill 21 bits, field by field. -/
theorem decodeOfEncodeGivesInstruction : Obligations.DecodeOfEncodeGivesInstruction := by
  intro i _
  cases i with
  | nop => decide
  | rdstat => decide
  | ack c => exact decode_encode_ack c
  | rdts c => exact decode_encode_rdts c
  | encode pr pg pb => exact decode_encode_encode pr pg pb
  | render d => exact decode_encode_render d

/-- Settles O2: a word that decodes is its fields side by side. -/
theorem encodeOfDecodeGivesWord : Obligations.EncodeOfDecodeGivesWord :=
  fun _ _ => encode_of_decode

/-- The check of the reserved bits rejects for no other reason (R43). -/
theorem checkReserved_ne_reservedOpcode {w : Word} {lo n : Nat} {i : Instr} :
    checkReserved w lo n i ≠ .error .reservedOpcode := by
  unfold checkReserved
  split <;> nofun

/-- A word is rejected by R43(a) exactly where its opcode is 6 or more. -/
theorem decode_eq_reservedOpcode_iff (w : Word) :
    decode w = .error .reservedOpcode ↔ 6 ≤ (opcodeOf w).toNat := by
  unfold decode opcodeOf
  split
  case h_7 =>
    refine iff_of_true rfl ?_
    by_contra hlt
    interval_cases (w.extractLsb' 28 4).toNat <;> contradiction
  all_goals exact iff_of_false checkReserved_ne_reservedOpcode (by omega)

/-- The opcodes that R39 assigns are those below 6. -/
theorem opcodeAssigned_iff (w : Word) : opcodeAssigned w = true ↔ (opcodeOf w).toNat < 6 := by
  unfold opcodeAssigned
  generalize opcodeOf w = op
  revert op
  decide

/-- Check 2 on a word fails exactly where the row with its opcode does not match it (R43(b)). -/
theorem reservedBitsZero_eq_false_iff (w : Word) :
    reservedBitsZero w = false ↔ ∃ r ∈ opcodeRows, r.opcode = opcodeOf w ∧ w &&& r.mask ≠ r.pattern := by
  simp [reservedBitsZero, OpcodeRow.accepts]

/-- The decoder rejects a word for a reserved bit exactly where check 2 fails on it (R43(b)). -/
theorem decode_eq_reservedBit_iff (w : Word) :
    decode w = .error .reservedBit ↔ reservedBitsZero w = false := by
  have hlegal := legalWord_eq_false_iff w
  rw [legalWord, Bool.and_eq_false_iff] at hlegal
  constructor
  · intro hd
    have hassigned : opcodeAssigned w = true := by
      rw [opcodeAssigned_iff, ← not_le, ← decode_eq_reservedOpcode_iff, hd]
      nofun
    exact (hlegal.mpr ⟨_, hd⟩).resolve_left (by simp [hassigned])
  · intro hz
    obtain ⟨e, hd⟩ := hlegal.mp (.inr hz)
    cases e with
    | reservedBit => exact hd
    | reservedOpcode =>
      obtain ⟨r, hr, hop, _⟩ := (reservedBitsZero_eq_false_iff w).mp hz
      have hassigned : opcodeAssigned w = true := List.any_eq_true.mpr ⟨r, hr, by simp [hop]⟩
      exact absurd ((decode_eq_reservedOpcode_iff w).mp hd) (not_le.mpr ((opcodeAssigned_iff w).mp hassigned))

/-- Settles O3: (a) by the opcode; (b) is check 2. -/
theorem decoderRejectsExactlyIllegalWords : Obligations.DecoderRejectsExactlyIllegalWords := fun w =>
  ⟨decode_eq_reservedOpcode_iff w, (decode_eq_reservedBit_iff w).trans (reservedBitsZero_eq_false_iff w)⟩

/-- Every row of R39 fixes the opcode bits, at its own opcode. -/
theorem opcodeRows_fix_opcode :
    ∀ r ∈ opcodeRows, r.mask.extractLsb' 28 4 = BitVec.allOnes 4 ∧ r.pattern.extractLsb' 28 4 = r.opcode := by
  decide

/-- A row of R39 is known by its opcode. -/
theorem opcodeRows_eq_of_opcode_eq : ∀ r ∈ opcodeRows, ∀ r' ∈ opcodeRows, r.opcode = r'.opcode → r = r' := by
  decide

/-- A word that matches a row of R39 has the row's opcode. -/
theorem opcodeOf_of_accepts {w : Word} {r : OpcodeRow} (hr : r ∈ opcodeRows) (h : r.accepts w = true) :
    opcodeOf w = r.opcode := by
  obtain ⟨hmask, hpattern⟩ := opcodeRows_fix_opcode r hr
  exact (extractLsb'_of_accepts 28 4 h hmask).trans hpattern

/-- Settles O4: two rows that match a word have its opcode both. -/
theorem everyWordMatchesAtMostOneRow : Obligations.EveryWordMatchesAtMostOneRow := by
  intro w r hr r' hr' h h'
  exact opcodeRows_eq_of_opcode_eq r hr r' hr' ((opcodeOf_of_accepts hr h).symm.trans (opcodeOf_of_accepts hr' h'))

/-- Settles O5: six words, decoded. -/
theorem writtenOutWordsDecode : Obligations.WrittenOutWordsDecode := by
  unfold Obligations.WrittenOutWordsDecode
  decide

end Sys2Proof
end

section
/-! SUPPORT. The statements on the assembler (spec/30_encoding.md R45, R46). -/

namespace Sys2Proof.Machine

/-- An integer taken into a field of `n` bits and zero-extended is its residue modulo `2 ^ n` (R42). -/
theorem setWidth_ofInt {n m : Nat} (x : Int) :
    (BitVec.ofInt n x).setWidth m = BitVec.ofInt m (x % 2 ^ n) := by
  have hn : (2 : Int) ^ n = (2 ^ n : Nat) := by simp
  apply BitVec.eq_of_toNat_eq
  rw [BitVec.toNat_setWidth, BitVec.toNat_ofInt, BitVec.toNat_ofInt, hn,
    Int.toNat_emod (Int.emod_nonneg x (by positivity)) (by positivity), Int.toNat_natCast]

/-- A value below `2 ^ n` is unchanged by a field of `n` bits. -/
theorem setWidth_ofInt_of_lt {n m : Nat} {x : Int} (h0 : 0 ≤ x) (hx : x < 2 ^ n) :
    (BitVec.ofInt n x).setWidth m = BitVec.ofInt m x := by
  rw [setWidth_ofInt, Int.emod_eq_of_lt h0 hx]

/-- The assembler rejects exactly the statements with an operand outside its range (R45). -/
theorem assemble_eq_none_iff (src : Source) : assemble src = none ↔ src.wellFormed = false := by
  unfold assemble
  split
  next hwf => cases src <;> simp [hwf]
  next hwf => simp [hwf]

/-- Settles O6: the fields that the range check lets through hold the operands. -/
theorem assemblerChecksRangesAndEncodes : Obligations.AssemblerChecksRangesAndEncodes := by
  refine ⟨assemble_eq_none_iff, ?_, ?_, ?_⟩
  · intro c h0 h1
    obtain rfl | rfl : c = 0 ∨ c = 1 := by omega
    · decide
    · decide
  · intro pr pg pb hr0 hr hg0 hg hb0 hb
    have hwf : Source.wellFormed (.encode pr pg pb) = true := by
      simp [Source.wellFormed, inRange, hr0, hr, hg0, hg, hb0, hb]
    rw [assemble, if_pos hwf, ← setWidth_ofInt_of_lt (n := 7) (m := 32) hr0 (by omega),
      ← setWidth_ofInt_of_lt (n := 7) (m := 32) hg0 (by omega),
      ← setWidth_ofInt_of_lt (n := 7) (m := 32) hb0 (by omega)]
    rfl
  · intro d h0 h1
    have hwf : Source.wellFormed (.render d) = true := by simp [Source.wellFormed, inRange, h0, h1]
    rw [assemble, if_pos hwf, show (256 : Int) = 2 ^ 8 by rfl, ← setWidth_ofInt]
    rfl

/-- Bit 2 of the status word is BUSY (R21). -/
theorem statusWord_bit2 (s : State) : (statusWord s).getLsbD 2 = s.busy := by
  simp only [statusWord, zextRsp, bitOf, BitVec.getLsbD_setWidth, BitVec.getLsbD_append]
  simp

/-- Settles O7: the bits that R46 tests are BUSY and the two flags PEND. -/
theorem pseudoWaitsEndOnStatus : Obligations.PseudoWaitsEndOnStatus := by
  intro s
  constructor
  · rw [Pseudo.repeats, statusWord_bit2]
    simp [Shaped.State.busy]
  · rw [Pseudo.repeats, statusWord_pendingBits]
    cases s.chA.pend <;> cases s.chB.pend <;> decide

end Sys2Proof.Machine
end

section
/-! SUPPORT. The words that a step decodes (spec/30_encoding.md R38, R39). -/

namespace Sys2Proof

/-- The word of a command decodes to it (R39). -/
theorem decode_encode (i : Instr) : decode (encode i) = .ok i :=
  decodeOfEncodeGivesInstruction i (by cases i <;> rfl)

/-- A table word of 32 bits is the word itself. -/
theorem tableWord_toNat (w : Word) : tableWord 32 w.toNat = w := by
  rw [tableWord, Nat.mod_eq_of_lt w.isLt, BitVec.ofNat_toNat, BitVec.setWidth_eq]

/-- A word with op 0 is checked for NOP's reserved bits (R38). -/
theorem decode_of_opcode_zero {w : Word} (hop : w.extractLsb' 28 4 = 0) : decode w = checkReserved w 0 28 .nop := by
  unfold decode
  rw [hop]
  rfl

end Sys2Proof
end

section
/-! SUPPORT. What a turn does (spec/40_control.md R48): every turn goes on, and a cycle runs the HOST step. -/

namespace Sys2Proof.Machine

variable {S : Config.Shape}

/-- A clock cycle always goes on: by reset, or as `cycle_next` says. -/
theorem cycle_goes_on (io : Shaped.CycleIn S) (s : Shaped.State S) : ∃ t, cycle io s = .next t := by
  cases hr : io.rstN with
  | false => exact ⟨resetBlock (beginCycle io s), by simp [cycle, hr]⟩
  | true =>
    obtain ⟨u, h, _⟩ := cycle_next s hr
    exact ⟨_, h⟩

/-- A turn of any agent goes on (R48, R84). -/
theorem takeTurn_goes_on (x : Shaped.Turn S) (s : Shaped.State S) : ∃ t, takeTurn x s = .next t := by
  cases x with
  | host => exact hostStep_next s
  | btn b => exact ⟨_, rfl⟩
  | clock n => exact ⟨_, rfl⟩
  | spe => exact ⟨_, rfl⟩
  | cycle io => exact cycle_goes_on io s

/-- A cycle without reset that presents a command runs the HOST step, whatever its outcome, and then the rest of the block
(R26). -/
theorem cycle_eq_andThen_hostStep {io : Shaped.CycleIn S} (s : Shaped.State S) (hr : io.rstN = true)
    (hv : io.cmdValid = true) :
    cycle io s = andThen (hostStep (beginCycle io s)) (clockBlock io (beginCycle io s)) := by
  simp [cycle, hr, hv]

/-- An in-range RENDER in IDLE starts its frame and is answered 1 (R73). -/
theorem execOf_render_idle {s : Shaped.State S} {d : BitVec 8} (hd : d.toNat < S.nGlyph) (hidle : s.txst = .idle) :
    execOf (.render d) s = .next (respond 1 (startFrame ⟨d.toNat, hd⟩ s)) := by
  simp [execOf, execRender, digitInRange, hd, Shaped.State.busy, hidle]

/-- The status word as a number (R21). -/
theorem statusWord_toNat (s : State) :
    (statusWord s).toNat = (if s.chA.pend then 1 else 0) + (if s.chB.pend then 2 else 0) + (if s.busy then 4 else 0)
      + (if s.latching then 8 else 0) + (if s.ill then 16 else 0) := by
  unfold statusWord
  generalize s.ill = i, s.latching = l, s.busy = u, s.chB.pend = p, s.chA.pend = q
  revert i l u p q
  decide

end Sys2Proof.Machine
end

section
/-! SUPPORT. The way to IDLE (spec/44_serial_engine.md R81): every SPE step brings it one step nearer, and with no turn fixed
the SPE moves until a held RENDER is accepted. -/

namespace Sys2Proof.Machine

variable {S : Config.Shape}

-- An SPE step leaves the environment's data alone (R74 to R77).
@[simp] theorem speStep_cmds (s : Shaped.State S) : (speStep s).cmds = s.cmds := by
  obtain ⟨_, e⟩ | ⟨_, e⟩ | ⟨_, e⟩ := speStep_cases s <;> simp [e]
@[simp] theorem speStep_responses (s : Shaped.State S) : (speStep s).responses = s.responses := by
  obtain ⟨_, e⟩ | ⟨_, e⟩ | ⟨_, e⟩ := speStep_cases s <;> simp [e]
@[simp] theorem speStep_turns (s : Shaped.State S) : (speStep s).turns = s.turns := by
  obtain ⟨_, e⟩ | ⟨_, e⟩ | ⟨_, e⟩ := speStep_cases s <;> simp [e]

@[simp] theorem iterate_speStep_cmds (n : Nat) (s : Shaped.State S) : (speStep^[n] s).cmds = s.cmds := by
  induction n with
  | zero => rfl
  | succ n ih => rw [Function.iterate_succ_apply', speStep_cmds, ih]
@[simp] theorem iterate_speStep_responses (n : Nat) (s : Shaped.State S) :
    (speStep^[n] s).responses = s.responses := by
  induction n with
  | zero => rfl
  | succ n ih => rw [Function.iterate_succ_apply', speStep_responses, ih]

/-- A frame in flight has a bit left to send (R75). -/
theorem sentBits_lt (s : Shaped.State S) : sentBits s < S.wordW * S.numPixels := by
  have hword : S.wordW * s.widx.val + S.wordW ≤ S.wordW * S.numPixels := Nat.mul_le_mul_left S.wordW s.widx.isLt
  have hpos := S.wordW_pos
  unfold sentBits
  omega

/-- No SPE step is left exactly in IDLE. -/
theorem speStepsLeft_eq_zero_iff (s : Shaped.State S) : speStepsLeft s = 0 ↔ s.txst = .idle := by
  cases h : s.txst <;> simp [speStepsLeft, h]

/-- Every SPE step brings IDLE one step nearer (R81). -/
theorem speStepsLeft_speStep (s : Shaped.State S) : speStepsLeft (speStep s) = speStepsLeft s - 1 := by
  obtain ⟨h, e⟩ | ⟨h, e⟩ | ⟨h, e⟩ := speStep_cases s <;> rw [e]
  · simp [speStepsLeft, h]
  · obtain ⟨ht, _, hsent⟩ | ⟨hlast, ht, _⟩ := speShift_progress s
    · have hleft := sentBits_lt s
      simp only [speStepsLeft, ht, h, hsent]
      omega
    · simp only [speStepsLeft, ht, h]
      omega
  · simp [speStepsLeft, h]

/-- IDLE is at most one step more away than a frame has bits (R81). -/
theorem speStepsLeft_le (s : Shaped.State S) : speStepsLeft s ≤ S.wordW * S.numPixels + 1 := by
  cases h : s.txst <;> simp only [speStepsLeft, h] <;> omega

/-- With no turn fixed the SPE moves while the presented word is held (log 2). -/
theorem step_of_not_cmdReady {s : State} (hts : s.turns = []) (hr : cmdReady true true s = false) :
    step s = .next (speStep s) := by
  have hturn : defaultTurn s = .spe := by simp [defaultTurn, hr]
  rw [step_nil s hts, hturn]
  rfl

/-- With no turn fixed the HOST moves as soon as its word would be accepted (log 2). -/
theorem step_of_cmdReady {s : State} (hts : s.turns = []) (hc : s.cmds ≠ []) (hr : cmdReady true true s = true) :
    step s = hostStep s := by
  have hturn : defaultTurn s = .host := by simp [defaultTurn, hr, hc]
  rw [step_nil s hts, hturn]
  rfl

/-- An in-range RENDER in front is ready to be accepted exactly in IDLE (R24). -/
theorem cmdReady_render {s : State} {d : BitVec 8} {rest : List Word} (hd : d.toNat < 10)
    (hc : s.cmds = encode (.render d) :: rest) : cmdReady true true s = false ↔ s.txst ≠ .idle := by
  have hword : isInRangeRender (S := referenceShape) (encode (.render d)) = true :=
    (isInRangeRender_iff _).mpr ⟨d, Nat.le_of_lt_succ hd, rfl⟩
  simp [cmdReady_eq_false_iff, hc, hword]

/-- The default schedule with an in-range RENDER in front: the SPE steps left until IDLE, then the HOST step that starts the
frame (R73, R81; log 2). -/
theorem run_held_render {s : State} {d : BitVec 8} {rest : List Word} (hd : d.toNat < 10) (hts : s.turns = [])
    (hc : s.cmds = encode (.render d) :: rest) :
    core.run (speStepsLeft s + 1) s =
      .next (respond 1 (startFrame ⟨d.toNat, hd⟩ (speStep^[speStepsLeft s] s))) := by
  induction hn : speStepsLeft s generalizing s with
  | zero =>
    have hidle := (speStepsLeft_eq_zero_iff s).mp hn
    have hr : cmdReady true true s = true := by
      rw [← Bool.not_eq_false, cmdReady_render hd hc]
      exact not_not_intro hidle
    have haccept : step s = .next (respond 1 (startFrame ⟨d.toNat, hd⟩ s)) := by
      rw [step_of_cmdReady hts (by simp [hc]) hr, hostStep_legal hc (decode_encode_render d), ← execOf_eq_exec]
      exact execOf_render_idle hd hidle
    exact run_succ_of_step 0 haccept
  | succ n ih =>
    have hbusy : s.txst ≠ .idle := fun hidle => by
      rw [(speStepsLeft_eq_zero_iff s).mpr hidle] at hn
      cases hn
    have hspe := step_of_not_cmdReady hts ((cmdReady_render hd hc).mpr hbusy)
    rw [run_succ_of_step (n + 1) hspe, Function.iterate_succ_apply]
    exact ih (by simpa using hts) (by simpa using hc) (by rw [speStepsLeft_speStep, hn]; rfl)

end Sys2Proof.Machine
end

section
/-! SUPPORT. The statements on the control commands and the steps of the machine (spec/40_control.md). -/

namespace Sys2Proof.Machine

/-- Settles O9: a step is a turn, every turn goes on, and none writes the parameters. -/
theorem everyStepGoesOn : Obligations.EveryStepGoesOn := by
  constructor
  · intro s
    obtain ⟨rest, e⟩ := step_eq s
    rw [e]
    exact takeTurn_goes_on _ _
  · intro S s x
    obtain ⟨t, ht⟩ := takeTurn_goes_on x s
    exact ⟨t, ht, takeTurn_config ht⟩

/-- Settles O23: at most 601 SPE steps lead to IDLE, and the HOST step after them accepts the RENDER. -/
theorem heldRenderIsAcceptedWithin602Steps : Obligations.HeldRenderIsAcceptedWithin602Steps := by
  intro s d rest hd hts hc
  have hbound : speStepsLeft s ≤ 601 := speStepsLeft_le s
  refine ⟨_, _, Nat.succ_le_succ hbound, run_held_render hd hts hc, ?_, ?_, rfl, rfl⟩
  · simp
  · simp [hc]

/-- Settles O8: a HOST turn, a cycle that presents, and the turn that `withFetchWord` places all run the HOST step, which
runs the decoded word. -/
theorem stepRunsPresentedCommand : Obligations.StepRunsPresentedCommand := by
  refine ⟨fun s w rest ts i hc hd => ⟨fun hts => ?_, fun io hts hr hv => ?_⟩, fun s i => ?_⟩
  · rw [step_cons s _ ts hts]
    exact hostStep_legal (s := setTurns ts s) hc hd
  · have hhost : hostStep (beginCycle io (setTurns ts s)) = exec i (beginCycle io (setTurns ts s)) :=
      hostStep_legal (by simpa using hc) hd
    rw [step_cons s _ ts hts]
    exact (cycle_eq_andThen_hostStep _ hr hv).trans (by rw [hhost]; rfl)
  · rw [State.withFetchWord, tableWord_toNat, step_cons _ .host s.turns rfl]
    exact hostStep_legal (s := { s with cmds := encode i :: s.cmds }) rfl (decode_encode i)

/-- Settles O15: a word with op 0 and its reserved bits zero decodes to NOP, and so is NOP's word. -/
theorem nopRespondsZero : Obligations.NopRespondsZero := by
  refine ⟨by decide, fun w hop hne => ?_, fun s => rfl⟩
  have hres : w.extractLsb' 0 28 ≠ 0 := fun hzero => by
    have hnop : decode w = .ok .nop := by
      rw [decode_of_opcode_zero hop]
      exact checkReserved_eq_ok_iff.mpr ⟨hzero, rfl⟩
    exact hne (encode_of_decode hnop).symm
  rw [decode_of_opcode_zero hop, checkReserved, if_neg hres]

/-- Settles O16: the response is the status word. -/
theorem rdstatRespondsStatusWord : Obligations.RdstatRespondsStatusWord := by
  intro s
  refine ⟨statusWord s, rfl, ?_⟩
  rw [statusWord_toNat]
  simp [Shaped.State.busy, Shaped.State.latching]

end Sys2Proof.Machine
end

section
/-! SUPPORT. The edge step (spec/41_debouncer.md R53, R54): what an accepted and a discarded edge do, and which steps it
commutes with. -/

namespace Sys2Proof.Machine

variable {S : Config.Shape}

/-- An accepted edge writes PEND and TS of its channel (R54). -/
theorem edge_of_accepts {s : Shaped.State S} {b : Button} {n : S.Stamp} (h : accepts s b n = true) :
    edge b n s = s.setChan b ((s.chan b).latchEdge n) := by
  rw [edge, edgeFrom, if_pos h]

/-- A discarded edge changes nothing (R54). -/
theorem edge_of_not_accepts {s : Shaped.State S} {b : Button} {n : S.Stamp} (h : accepts s b n = false) :
    edge b n s = s := by
  rw [edge, edgeFrom, h, if_neg Bool.false_ne_true]

/-- The debounce test reads the parameters and its own channel only (R54). -/
theorem accepts_congr {s s' : Shaped.State S} {b : Button} (n : S.Stamp) (hcfg : s'.config = s.config)
    (hchan : s'.chan b = s.chan b) : accepts s' b n = accepts s b n := by
  rw [accepts, accepts, hcfg, hchan]

/-- An edge step commutes with every operation that keeps the parameters and its channel and does not read the channel
(R59, R85). -/
theorem edge_comm_of_setChan_comm {f : Shaped.State S → Shaped.State S} {s : Shaped.State S} {b : Button} (n : S.Stamp)
    (hcfg : (f s).config = s.config) (hchan : (f s).chan b = s.chan b)
    (hset : ∀ c, f (s.setChan b c) = (f s).setChan b c) : f (edge b n s) = edge b n (f s) := by
  have ha := accepts_congr n hcfg hchan
  cases h : accepts s b n with
  | true => rw [edge_of_accepts h, edge_of_accepts (ha.trans h), hset, hchan]
  | false => rw [edge_of_not_accepts h, edge_of_not_accepts (ha.trans h)]

/-- An edge step of channel A does not read channel B (R53, R59). -/
theorem edge_A_setChan_B (n : S.Stamp) (s : Shaped.State S) (c : Shaped.Channel S) :
    edge .A n (s.setChan .B c) = (edge .A n s).setChan .B c :=
  (edge_comm_of_setChan_comm (f := fun s => s.setChan .B c) n rfl rfl (fun c' => setChan_comm s c' c)).symm

/-- The advance after a bit does not read the channels (R75). -/
theorem advance_setChan (s : Shaped.State S) (b : Button) (c : Shaped.Channel S) :
    advance (s.setChan b c) = (advance s).setChan b c := by
  obtain ⟨_, hb, e⟩ | ⟨_, hb, e⟩ | ⟨hb, hw, e⟩ := advance_cases s <;> rw [e]
  · rw [advance, if_pos (by simpa using hb)]
    rfl
  · rw [advance, if_neg (by simp [hb]), dif_pos (by rw [setChan_widx]; omega)]
    rfl
  · rw [advance, if_neg (by simp [hb]), dif_neg (by simp [hw])]
    rfl

/-- A SHIFT step does not read the channels (R74). -/
theorem speShift_setChan (s : Shaped.State S) (b : Button) (c : Shaped.Channel S) :
    speShift (s.setChan b c) = (speShift s).setChan b c :=
  congrArg endBitPeriod (advance_setChan (emit (.bit (currentBit s)) s) b c)

/-- An SPE step does not read the channels (R85). -/
theorem speStep_setChan (s : Shaped.State S) (b : Button) (c : Shaped.Channel S) :
    speStep (s.setChan b c) = (speStep s).setChan b c := by
  cases h : s.txst with
  | idle => simp only [speStep, setChan_txst, h]
  | shift => simpa only [speStep, setChan_txst, h] using speShift_setChan s b c
  | latch =>
    simp only [speStep, setChan_txst, h]
    rfl

/-- A RENDER and an edge commute: RENDER reads the SPE alone and writes the SPE and the response, whether it is out of
range, held or accepted (R72, R73, R85). -/
theorem execRender_edge (d : BitVec 8) (b : Button) (n : S.Stamp) (s : Shaped.State S) :
    execRender d (edge b n s) = andThen (execRender d s) (edge b n) := by
  have hbusy : (edge b n s).busy = s.busy := by
    obtain ⟨_, e⟩ | ⟨_, e⟩ := edgeFrom_cases s b n s <;> rw [edge, e]
    rfl
  unfold execRender
  rw [hbusy]
  cases digitInRange d with
  | none => exact congrArg _ (edge_comm_of_setChan_comm n rfl (chan_respond 0 s b) fun _ => rfl)
  | some g =>
    cases s.busy with
    | true => rfl
    | false =>
      refine congrArg _ (edge_comm_of_setChan_comm (f := fun s => respond 1 (startFrame g s)) n rfl ?_ fun _ => rfl)
      simp

end Sys2Proof.Machine
end

section
/-! SUPPORT. Edges of one channel in a row (spec/41_debouncer.md R58): which are accepted, and what they leave. -/

namespace Sys2Proof.Machine

variable {S : Config.Shape}

/-- Among edges in a row, one that passes the test is accepted and moves the time stamp for the ones after it (R54). -/
theorem acceptedStamps_cons_of_accepts {s : Shaped.State S} {b : Button} {n : S.Stamp} (ns : List S.Stamp)
    (h : accepts s b n = true) : acceptedStamps b s (n :: ns) = n :: acceptedStamps b (edge b n s) ns := by
  rw [acceptedStamps, if_pos h]

/-- Among edges in a row, one that fails the test leaves the ones after it to the same state (R54). -/
theorem acceptedStamps_cons_of_not_accepts {s : Shaped.State S} {b : Button} {n : S.Stamp} (ns : List S.Stamp)
    (h : accepts s b n = false) : acceptedStamps b s (n :: ns) = acceptedStamps b s ns := by
  rw [acceptedStamps, h, if_neg Bool.false_ne_true, edge_of_not_accepts h]

@[simp] theorem edgesRun_cons (b : Button) (s : Shaped.State S) (n : S.Stamp) (ns : List S.Stamp) :
    edgesRun b s (n :: ns) = edgesRun b (edge b n s) ns := rfl

/-- The accepted edges alone lead to the state that all of them lead to (R58). -/
theorem edgesRun_acceptedStamps (b : Button) (s : Shaped.State S) (ns : List S.Stamp) :
    edgesRun b s (acceptedStamps b s ns) = edgesRun b s ns := by
  induction ns generalizing s with
  | nil => rfl
  | cons n ns ih =>
    cases h : accepts s b n with
    | true => rw [acceptedStamps_cons_of_accepts ns h, edgesRun_cons, edgesRun_cons, ih]
    | false => rw [acceptedStamps_cons_of_not_accepts ns h, ih, edgesRun_cons, edge_of_not_accepts h]

/-- An accepted edge whose stamp is not before TS, so that the difference does not wrap, is more than DEBOUNCE_MS after it
(R54). -/
theorem le_of_accepts {s : State} {b : Button} {n : Stamp} (h : accepts s b n = true)
    (hle : (s.chan b).ts.toNat ≤ n.toNat) : (s.chan b).ts.toNat + (s.config.debounceMs + 1) ≤ n.toNat := by
  have hdelta := (accepts_iff s b n).mp h
  rw [BitVec.toNat_sub_of_le (BitVec.le_def.mpr hle)] at hdelta
  omega

/-- An accepted edge leaves its own stamp in TS (R54). -/
theorem ts_edge_of_accepts {s : Shaped.State S} {b : Button} {n : S.Stamp} (h : accepts s b n = true) :
    ((edge b n s).chan b).ts = n := by
  rw [edge_of_accepts h, chan_setChan_same, latchEdge_ts]

/-- Of edges in a row whose stamps do not decrease from TS on, the accepted ones are more than DEBOUNCE_MS after TS. -/
theorem le_of_mem_acceptedStamps {b : Button} {ns : List Stamp} (hns : ns.Pairwise (fun n m => n.toNat ≤ m.toNat))
    (s : State) (hle : ∀ n ∈ ns, (s.chan b).ts.toNat ≤ n.toNat) {m : Stamp} (hm : m ∈ acceptedStamps b s ns) :
    (s.chan b).ts.toNat + (s.config.debounceMs + 1) ≤ m.toNat := by
  induction ns generalizing s with
  | nil => cases hm
  | cons n ns ih =>
    obtain ⟨hn, hns⟩ := List.pairwise_cons.mp hns
    obtain ⟨hle0, hle⟩ := List.forall_mem_cons.mp hle
    cases h : accepts s b n with
    | true =>
      have hfirst := le_of_accepts h hle0
      rw [acceptedStamps_cons_of_accepts ns h, List.mem_cons] at hm
      obtain rfl | hm := hm
      · exact hfirst
      · have hlater := ih hns (edge b n s) (by rwa [ts_edge_of_accepts h]) hm
        rw [ts_edge_of_accepts h] at hlater
        omega
    | false =>
      rw [acceptedStamps_cons_of_not_accepts ns h] at hm
      exact ih hns s hle hm

/-- Of edges in a row whose stamps do not decrease, any two accepted ones are more than DEBOUNCE_MS apart (R58): each
accepted one is in TS when the later ones are tested. -/
theorem acceptedStamps_pairwise {b : Button} {ns : List Stamp} (hns : ns.Pairwise (fun n m => n.toNat ≤ m.toNat))
    (s : State) : (acceptedStamps b s ns).Pairwise (fun n m => n.toNat + (s.config.debounceMs + 1) ≤ m.toNat) := by
  induction ns generalizing s with
  | nil => exact .nil
  | cons n ns ih =>
    obtain ⟨hn, hns⟩ := List.pairwise_cons.mp hns
    cases h : accepts s b n with
    | true =>
      have hlater : ∀ m ∈ acceptedStamps b (edge b n s) ns, n.toNat + (s.config.debounceMs + 1) ≤ m.toNat := by
        intro m hm
        have hm := le_of_mem_acceptedStamps hns (edge b n s) (by rwa [ts_edge_of_accepts h]) hm
        rwa [ts_edge_of_accepts h, edge_config] at hm
      rw [acceptedStamps_cons_of_accepts ns h, List.pairwise_cons]
      exact ⟨hlater, by simpa using ih hns (edge b n s)⟩
    | false =>
      rw [acceptedStamps_cons_of_not_accepts ns h]
      exact ih hns s

end Sys2Proof.Machine
end

section
/-! SUPPORT. A channel's line through clock cycles (spec/41_debouncer.md R52, R15): the synchroniser and LVL behind it are
one shift register of SYNC_STAGES + 1 bits, which the pin enters at bit 0. -/

namespace Sys2Proof.Shaped

variable {S : Config.Shape}

/-- The last SYNC_STAGES + 1 levels of a channel's line, the newest one at bit 0: LVL above SYNC (R15). -/
def Channel.history (c : Channel S) : BitVec (S.syncStages + 1) := BitVec.cons c.lvl c.sync

end Sys2Proof.Shaped

namespace Sys2Proof.Machine

variable {S : Config.Shape}

/-- A shift register whose top bit is held apart takes a level as one longer register does. -/
theorem cons_shiftConcat {w : Nat} (hw : 0 < w) (x : BitVec w) (top pin : Bool) :
    BitVec.cons (x.getLsbD (w - 1)) (x.shiftConcat pin) = (BitVec.cons top x).shiftConcat pin := by
  apply BitVec.eq_of_getLsbD_eq
  intro k hk
  simp only [BitVec.getLsbD_cons, BitVec.getLsbD_shiftConcat, hk, decide_true, Bool.true_and]
  rw [if_neg (show k - 1 ≠ w by omega)]
  obtain hlt | rfl := Nat.lt_or_eq_of_le (Nat.le_of_lt_succ hk)
  · simp [hlt, hlt.ne]
  · simp [hw.ne']

/-- The sampling shifts the pin into the history of the line (R52). -/
theorem history_sample (c : Shaped.Channel S) (pin : Bool) : (c.sample pin).history = c.history.shiftConcat pin :=
  cons_shiftConcat S.syncStages_pos c.sync c.lvl pin

@[simp] theorem history_latchEdge (c : Shaped.Channel S) (n : S.Stamp) : (c.latchEdge n).history = c.history := rfl
@[simp] theorem history_withPend (c : Shaped.Channel S) (v : Bool) : (c.withPend v).history = c.history := rfl

/-- A falling edge is detected where the oldest level of the history is high and the next one is low (R15, R52). -/
theorem falling_eq_history (c : Shaped.Channel S) :
    c.falling = (c.history.getLsbD S.syncStages && !c.history.getLsbD (S.syncStages - 1)) := by
  have hpos := S.syncStages_pos
  rw [Shaped.Channel.history, BitVec.getLsbD_cons, BitVec.getLsbD_cons, if_pos rfl, if_neg (by omega)]
  rfl

/-- Shifting in a list of levels moves every bit up by their number. -/
theorem getLsbD_foldl_shiftConcat {w : Nat} (pins : List Bool) (x : BitVec w) {k : Nat} (hk : k + pins.length < w) :
    (pins.foldl BitVec.shiftConcat x).getLsbD (k + pins.length) = x.getLsbD k := by
  induction pins generalizing x k with
  | nil => rfl
  | cons p pins ih =>
    rw [List.length_cons, Nat.add_comm pins.length 1, ← Nat.add_assoc] at hk ⊢
    have hk1 : k + 1 < w := by omega
    rw [List.foldl_cons, ih _ hk, BitVec.getLsbD_shiftConcat]
    simp [hk1]

/-- The first of a list of levels shifted in stands as many bits up as levels follow it. -/
theorem getLsbD_foldl_shiftConcat_first {w : Nat} (pin : Bool) (pins : List Bool) (x : BitVec w) (hw : pins.length < w) :
    ((pin :: pins).foldl BitVec.shiftConcat x).getLsbD pins.length = pin := by
  have hw0 : 0 < w := by omega
  have h := getLsbD_foldl_shiftConcat (k := 0) pins (x.shiftConcat pin) (by omega)
  rw [Nat.zero_add] at h
  rw [List.foldl_cons, h, BitVec.getLsbD_shiftConcat]
  simp [hw0]

/-- After SYNC_STAGES + 1 levels of the line a falling edge is detected exactly where the first was high and the second
low (R52, R99). -/
theorem falling_of_history {c : Shaped.Channel S} {x : BitVec (S.syncStages + 1)} {p q : Bool} {pins : List Bool}
    (hlen : pins.length + 1 = S.syncStages) (h : c.history = (p :: q :: pins).foldl BitVec.shiftConcat x) :
    c.falling = (p && !q) := by
  have hp := getLsbD_foldl_shiftConcat_first p (q :: pins) x (by rw [List.length_cons]; omega)
  have hq := getLsbD_foldl_shiftConcat_first q pins (x.shiftConcat p) (by omega)
  rw [List.length_cons, hlen, ← h] at hp
  rw [← List.foldl_cons, ← h, show pins.length = S.syncStages - 1 by omega] at hq
  rw [falling_eq_history, hp, hq]

/-- An ACK leaves the lines of both channels alone (R56). -/
@[simp] theorem chan_setPend_history (c : Button) (v : Bool) (s : Shaped.State S) (b : Button) :
    ((setPend c v s).chan b).history = (s.chan b).history := by
  cases b <;> cases c <;> rfl

/-- A HOST step leaves the lines of both channels alone. -/
theorem hostStep_history {s t : Shaped.State S} (h : hostStep s = .next t) (b : Button) :
    (t.chan b).history = (s.chan b).history := by
  obtain ⟨rfl, _⟩ | ⟨_, _, _, _, _, rfl⟩ | ⟨_, _, _, _, _, rfl⟩ | ⟨_, rfl⟩ | ⟨_, rfl⟩ := hostStep_next_cases h <;> simp

/-- A HOST step leaves the turns to come alone. -/
theorem hostStep_turns {s t : Shaped.State S} (h : hostStep s = .next t) : t.turns = s.turns := by
  obtain ⟨rfl, _⟩ | ⟨_, _, _, _, _, rfl⟩ | ⟨_, _, _, _, _, rfl⟩ | ⟨_, rfl⟩ | ⟨_, rfl⟩ := hostStep_next_cases h <;> simp

/-- The block's part of a cycle samples the line of every channel that the shape has (R52). -/
theorem clockBlock_history (io : Shaped.CycleIn S) (s0 s : Shaped.State S) {b : Button} (hb : hasChannel S b = true) :
    ((clockBlock io s0 s).chan b).history = (s.chan b).history.shiftConcat (io.btnN b) := by
  have hchan : (clockBlock io s0 s).chan b = (debounceInCycle io s0 s).chan b := by
    cases b <;> simp [clockBlock]
  rw [hchan, debounceInCycle_chan_of_has io s0 s b hb, history_sample]
  split <;> rfl

/-- The state `t` is the state `s` after one sampling of every line, with the same turns to come. -/
structure LinesSampled (io : Shaped.CycleIn S) (s t : Shaped.State S) : Prop where
  turns : t.turns = s.turns
  history : ∀ b, hasChannel S b = true → (t.chan b).history = (s.chan b).history.shiftConcat (io.btnN b)

/-- A cycle without reset samples the lines, whatever else it does (R52). -/
theorem cycle_linesSampled {io : Shaped.CycleIn S} (s : Shaped.State S) (hr : io.rstN = true) :
    ∃ t, cycle io s = .next t ∧ LinesSampled io s t := by
  obtain ⟨u, ht, _, presents, silent⟩ := cycle_next s hr
  have hu : u.turns = s.turns ∧ ∀ b, (u.chan b).history = (s.chan b).history := by
    cases hv : io.cmdValid with
    | true =>
      have hhost := presents hv
      exact ⟨by simpa using hostStep_turns hhost, fun b => by simpa using hostStep_history hhost b⟩
    | false =>
      rw [silent hv]
      exact ⟨rfl, fun b => by rw [chan_beginCycle]⟩
  obtain ⟨hturns, hhist⟩ := hu
  exact ⟨_, ht, by simpa [clockBlock] using hturns, fun b hb => by rw [clockBlock_history io _ u hb, hhist]⟩

/-- A step that is a cycle without reset uses its turn up and samples the lines. -/
theorem step_linesSampled {s : State} {io : CycleIn} {ts : List Turn} (hts : s.turns = .cycle io :: ts)
    (hr : io.rstN = true) : ∃ t, step s = .next t ∧ LinesSampled io (setTurns ts s) t := by
  rw [step_cons s _ ts hts]
  exact cycle_linesSampled _ hr

/-- Cycles without reset shift the sampled levels into the history of each line, one after the other (R52). -/
theorem runTurns_cycles_history {b : Button} (hb : hasChannel S b = true) (ios : List (Shaped.CycleIn S))
    (hr : ∀ io ∈ ios, io.rstN = true) (s : Shaped.State S) :
    ∃ t, runTurns (ios.map .cycle) s = .next t ∧
      (t.chan b).history = (ios.map (·.btnN b)).foldl BitVec.shiftConcat (s.chan b).history := by
  induction ios generalizing s with
  | nil => exact ⟨s, rfl, rfl⟩
  | cons io ios ih =>
    obtain ⟨hr0, hr⟩ := List.forall_mem_cons.mp hr
    obtain ⟨u, hu, hs⟩ := cycle_linesSampled s hr0
    obtain ⟨t, ht, hist⟩ := ih hr u
    refine ⟨t, ?_, by rw [hist, hs.history b hb]; rfl⟩
    rw [List.map_cons, runTurns, takeTurn, hu]
    exact ht

end Sys2Proof.Machine
end

section
/-! SUPPORT. The channel's flag in a HOST step and in a clock cycle (spec/41_debouncer.md R56, R26), and its registers in the
reference shape. -/

namespace Sys2Proof.Machine

/-- What a HOST step leaves in a channel, exactly (R56). -/
theorem hostStep_chan_eq {s t : State} (b : Button) (h : hostStep s = .next t) :
    t.chan b = if s.cmds.head? = some (encode (.ack b)) then (s.chan b).withPend false else s.chan b := by
  by_cases hack : s.cmds.head? = some (encode (.ack b))
  · obtain ⟨rest, hc⟩ := List.head?_eq_some_iff.mp hack
    have hexec := hostStep_legal hc (decode_encode_ack b)
    cases hexec.symm.trans h
    simp [hack]
  · rw [if_neg hack]
    exact (hostStep_chan b h).resolve_left fun ack => hack ack.presented

/-- What a cycle without reset leaves in a channel, exactly: an accepted edge overwrites what the ACK of the same cycle
cleared, and the sampling comes last (R26, R52, R54, R56). -/
theorem cycle_chan_eq {io : CycleIn} (s : State) (b : Button) (hr : io.rstN = true) :
    ∃ t, cycle io s = .next t ∧ t.chan b = Shaped.Channel.sample
      (if (s.chan b).falling = true ∧ s.config.debounceMs < (io.nowMs - (s.chan b).ts).toNat
        then (s.chan b).latchEdge io.nowMs
        else if io.cmdValid = true ∧ s.cmds.head? = some (encode (.ack b)) then (s.chan b).withPend false
        else s.chan b) (io.btnN b) := by
  obtain ⟨u, ht, _, presents, silent⟩ := cycle_next s hr
  have hu : u.chan b = if io.cmdValid = true ∧ s.cmds.head? = some (encode (.ack b))
      then (s.chan b).withPend false else s.chan b := by
    cases hv : io.cmdValid with
    | true => simpa using hostStep_chan_eq b (presents hv)
    | false => simp [silent hv]
  refine ⟨_, ht, ?_⟩
  rw [clockBlock_chan, hu]
  simp only [chan_beginCycle, accepts_beginCycle, Bool.and_eq_true, accepts_iff]
  congr 1
  split
  · split <;> rfl
  · rfl

/-- The sampling in the two-stage synchroniser of the reference shape: every level moves on by one
stage (R52). -/
theorem sample_line_reference (c : Shaped.Channel referenceShape) (pin : Bool) :
    (c.sample pin).sync.getLsbD 0 = pin ∧ (c.sample pin).sync.getLsbD 1 = c.sync.getLsbD 0 ∧
      (c.sample pin).lvl = c.sync.getLsbD 1 := by
  simp [Shaped.Channel.sample, Shaped.Channel.syncOut]

/-- The response of ACK is its flag as a number (R56). -/
theorem zextRsp_bitOf (p : Bool) : zextRsp (S := referenceShape) (bitOf p) = if p then 1 else 0 := by
  cases p <;> rfl

/-- The debounce difference as R54 writes it, modulo 2^32. -/
theorem toNat_sub_stamp (n m : Stamp) : (n - m).toNat = (n.toNat + 2 ^ 32 - m.toNat) % 2 ^ 32 := by
  have hm : m.toNat < 2 ^ 32 := m.isLt
  have hsub : (n - m).toNat = (2 ^ 32 - m.toNat + n.toNat) % 2 ^ 32 := BitVec.toNat_sub n m
  rw [hsub]
  congr 1
  omega

/-- A step whose turn is a channel's is its edge step at NOW (R53, R54). -/
theorem step_btn {s : State} {b : Button} {ts : List Turn} (hts : s.turns = .btn b :: ts) :
    step s = .next (if s.config.debounceMs < (s.now.toNat + 2 ^ 32 - (s.chan b).ts.toNat) % 2 ^ 32
      then (setTurns ts s).setChan b ((s.chan b).latchEdge s.now) else setTurns ts s) := by
  rw [step_cons s _ ts hts, ← toNat_sub_stamp]
  simp only [← accepts_iff s b s.now]
  cases h : accepts s b s.now with
  | true =>
    have h' := (accepts_setTurns ts s b s.now).trans h
    simp [takeTurn, edge_of_accepts h']
  | false =>
    have h' := (accepts_setTurns ts s b s.now).trans h
    simp [takeTurn, edge_of_not_accepts h']

/-- On a channel that is pending already an accepted edge writes TS alone (R55). -/
theorem latchEdge_of_pend {S : Config.Shape} {c : Shaped.Channel S} (n : S.Stamp) (hp : c.pend = true) :
    c.latchEdge n = { c with ts := n } := by
  rw [Shaped.Channel.latchEdge, ← hp]

end Sys2Proof.Machine
end

section
/-! SUPPORT. The statements on the debouncer (spec/41_debouncer.md). -/

namespace Sys2Proof.Machine

/-- Settles O26: TS moves with each accepted edge, and the differences do not wrap. -/
theorem acceptedEdgesAreAtLeast201Apart : Obligations.AcceptedEdgesAreAtLeast201Apart :=
  ⟨rfl, fun s _ _ hns => acceptedStamps_pairwise hns s⟩

/-- Settles O27, by induction on the list of stamps. -/
theorem discardedEdgesLeaveNoTrace : Obligations.DiscardedEdgesLeaveNoTrace :=
  fun s b ns => edgesRun_acceptedStamps b s ns

/-- Settles O33: the other channel's edge, the SPE step and RENDER neither write nor read what an edge step uses. -/
theorem edgeStepsAreIndependent : Obligations.EdgeStepsAreIndependent := by
  refine ⟨fun s n m => ?_, fun s b n => ?_, fun s b n d => execRender_edge d b n s⟩
  · exact edge_comm_of_setChan_comm (f := edge .A n) m (edge_config .A n s) (chan_edge_other n s (by decide))
      (edge_A_setChan_B n s)
  · exact edge_comm_of_setChan_comm n (speStep_config s) (chan_speStep s b) (speStep_setChan s b)

/-- Settles O51, register by register, from what the cycle leaves in the whole channel. -/
theorem cycleUpdatesChannels : Obligations.CycleUpdatesChannels := by
  intro s b io ts hts hr
  obtain ⟨t, ht, hchan⟩ := cycle_chan_eq (setTurns ts s) b hr
  refine ⟨t, (step_cons s _ ts hts).trans ht, ?_⟩
  rw [hchan, chan_setTurns, setTurns_config, setTurns_cmds]
  split
  · exact ⟨rfl, rfl, sample_line_reference _ _⟩
  · split <;> exact ⟨rfl, rfl, sample_line_reference _ _⟩

/-- Settles O56: the three levels sampled are the whole history of the line. -/
theorem fallingEdgeIsSeenAfterTwoCycles : Obligations.FallingEdgeIsSeenAfterTwoCycles := by
  intro s i j k ts hts hi hj hk
  obtain ⟨t1, e1, l1⟩ := step_linesSampled hts hi
  obtain ⟨t2, e2, l2⟩ := step_linesSampled l1.turns hj
  obtain ⟨t3, e3, l3⟩ := step_linesSampled l2.turns hk
  have hist : ∀ b, (t3.chan b).history =
      [i.btnN b, j.btnN b, k.btnN b].foldl BitVec.shiftConcat (s.chan b).history := by
    intro b
    rw [l3.history b (hasChannel_reference b), chan_setTurns, l2.history b (hasChannel_reference b), chan_setTurns,
      l1.history b (hasChannel_reference b), chan_setTurns]
    rfl
  refine ⟨t3, ?_, falling_of_history rfl (hist .A), falling_of_history rfl (hist .B)⟩
  rw [run_succ_of_step 2 e1, run_succ_of_step 1 e2, run_succ_of_step 0 e3]
  rfl

/-- Settles O57: the SYNC_STAGES + 1 levels sampled are the whole history of the line. -/
theorem fallingEdgeIsSeenAfterSyncStages : Obligations.FallingEdgeIsSeenAfterSyncStages := by
  intro S s b i j ios hb hlen hr
  obtain ⟨t, ht, hist⟩ := runTurns_cycles_history hb (i :: j :: ios) hr s
  exact ⟨t, ht, falling_of_history (by rwa [List.length_map]) hist⟩

/-- Settles O17: the response is the flag as it was. -/
theorem ackReadsAndClearsItsChannel : Obligations.AckReadsAndClearsItsChannel := by
  intro s
  simp only [← zextRsp_bitOf]
  exact ⟨rfl, rfl⟩

/-- Settles O18: the response is the time stamp. -/
theorem rdtsRespondsTimestamp : Obligations.RdtsRespondsTimestamp := by
  intro s
  rw [← zextRsp_stamp s.chA.ts, ← zextRsp_stamp s.chB.ts]
  exact ⟨rfl, rfl⟩

/-- Settles O24, from the edge step of either channel. -/
theorem edgeStepFollowsDebounceTest : Obligations.EdgeStepFollowsDebounceTest :=
  ⟨rfl, fun _ _ => ⟨step_btn, step_btn⟩⟩

/-- Settles O25: the accepted edge writes PEND and TS, and PEND is 1 already. -/
theorem acceptedEdgeWhilePendingCoalesces : Obligations.AcceptedEdgeWhilePendingCoalesces := by
  intro s b n hp hlt
  rw [edge_of_accepts ((accepts_iff s b n).mpr hlt), latchEdge_of_pend n hp]

end Sys2Proof.Machine
end

section
/-! SUPPORT. The glyph ROM and the pixel multiplexer (spec/42_glyph_rom.md): a ROM whose masks are listed without repetition
tells every two digits apart, and the word of a cell has one value where the cell is lit and one where it is not. -/

namespace Sys2Proof.Machine

variable {S : Config.Shape}

/-- R61 (b) for any instance: a ROM without a repeated mask has different masks for different digits. -/
theorem romDistinct_of_nodup {P : Config.Params S} (h : P.glyphRom.toList.Nodup) : romDistinct P := by
  intro d e hmask
  exact Fin.ext ((h.getElem_inj_iff (hi := by simp) (hj := by simp)).mp hmask)

theorem referenceRom_nodup : referenceRom.toList.Nodup := by decide

/-- The word of a lit cell is LIT_COLOUR, packed (R63, R64). -/
theorem frameWord_of_lit {P : Config.Params S} {d : Fin S.nGlyph} {i : Fin S.numPixels}
    (h : (romRead P d).getLsbD i = true) :
    frameWord P d i = packColour S P.roundHalf P.litColour.1 P.litColour.2.1 P.litColour.2.2 := by
  simp only [frameWord, cellColour, if_pos h]

/-- The word of an unlit cell is the colour off, packed (R63, R64). -/
theorem frameWord_of_unlit {P : Config.Params S} {d : Fin S.nGlyph} {i : Fin S.numPixels}
    (h : ¬ (romRead P d).getLsbD i = true) : frameWord P d i = packColour S P.roundHalf 0 0 0 := by
  simp only [frameWord, cellColour, if_neg h]

/-- The colour off packs to 0, in every shape and for either rounding (R66, R69). -/
@[simp] theorem packColour_off (r : Config.RoundHalf) : packColour S r 0 0 0 = 0 := by
  simp [packColour, conv]

/-- Full red packs to 255 in the red byte, for either rounding: 255 × 100 / 100 is no half (R67, R69). -/
@[simp] theorem packColour_red (r : Config.RoundHalf) : packColour referenceShape r 100 0 0 = 0x00FF00 := by
  cases r <;> rfl

/-- Settles O36: the ten masks are listed without repetition, and a cell's word is either full red or off, packed. -/
theorem glyphsDifferAndWordsAreRed : Obligations.GlyphsDifferAndWordsAreRed := by
  refine ⟨romDistinct_of_nodup referenceRom_nodup, rfl, fun P d i hred => ?_⟩
  split
  case isTrue hlit => rw [frameWord_of_lit hlit, hred, packColour_red]
  case isFalse hunlit => rw [frameWord_of_unlit hunlit, packColour_off]

end Sys2Proof.Machine
end

section
/-! SUPPORT. The rounding and the channel conversion (spec/43_color_codec.md R66 to R68): the rounded value does not
decrease, and the converted value is the rounded one clamped, 0 included. -/

namespace Sys2Proof.Machine

variable {S : Config.Shape}

/-- 0 rounds to 0 without the bypass of R66. -/
@[simp] theorem convRaw_zero (r : Config.RoundHalf) : convRaw S r 0 = 0 := by
  cases r <;> simp [convRaw]

/-- Halves up: the integer function of R67, with the shape's full scale. -/
theorem convRaw_up_eq (p : Nat) : convRaw S .up p = (fullScale S * p + 50) / 100 := rfl

/-- The two roundings agree but at a half whose quotient is even: there halves to even give one less (R67, U2). -/
theorem convRaw_even_eq (p : Nat) :
    convRaw S .even p = if fullScale S * p % 200 = 50 then convRaw S .up p - 1 else convRaw S .up p := by
  simp only [convRaw]
  split_ifs <;> omega

/-- The rounded value does not decrease with the percentage, for either rounding of halves (R67). -/
theorem convRaw_mono (r : Config.RoundHalf) {p q : Nat} (h : p ≤ q) : convRaw S r p ≤ convRaw S r q := by
  have hmul : fullScale S * p ≤ fullScale S * q := Nat.mul_le_mul_left _ h
  cases r with
  | up => exact Nat.div_le_div_right (Nat.add_le_add_right hmul 50)
  | even =>
    simp only [convRaw_even_eq, convRaw_up_eq]
    split_ifs <;> omega

/-- One percent more gives more than one device value more where the full scale is above 100, so the rounded value
increases strictly (R71 (e)). -/
theorem convRaw_strictMono (hS : 100 < fullScale S) (r : Config.RoundHalf) {p q : Nat} (h : p < q) :
    convRaw S r p < convRaw S r q := by
  have hmul : fullScale S * p + fullScale S ≤ fullScale S * q := Nat.mul_le_mul_left (fullScale S) h
  cases r with
  | up =>
    rw [convRaw_up_eq, convRaw_up_eq]
    omega
  | even =>
    simp only [convRaw_even_eq, convRaw_up_eq]
    split_ifs <;> omega

/-- 100 % is the full scale for either rounding: it is no half (R68). -/
theorem convRaw_hundred (r : Config.RoundHalf) : convRaw S r 100 = fullScale S := by
  cases r with
  | up =>
    rw [convRaw_up_eq]
    omega
  | even =>
    rw [convRaw_even_eq, if_neg (by omega), convRaw_up_eq]
    omega

/-- The clamp never acts up to 100 % (R68). -/
theorem convRaw_le_fullScale (r : Config.RoundHalf) {p : Nat} (h : p ≤ 100) : convRaw S r p ≤ fullScale S :=
  convRaw_hundred (S := S) r ▸ convRaw_mono r h

/-- The converted value is the rounded one, clamped (R66, R68). -/
theorem conv_toNat (r : Config.RoundHalf) (p : S.Pct) :
    (conv S r p).toNat = min (convRaw S r p.toNat) (fullScale S) := by
  have hlt : min (convRaw S r p.toNat) (fullScale S) < 2 ^ S.devW :=
    (min_le_right ..).trans_lt (Nat.sub_one_lt (Nat.two_pow_pos S.devW).ne')
  unfold conv
  split
  case isTrue hp => simp [hp]
  case isFalse => exact BitVec.toNat_ofNat .. ▸ Nat.mod_eq_of_lt hlt

/-- The converted value does not decrease with the percentage (R71 (c)). -/
theorem conv_mono (r : Config.RoundHalf) {p q : S.Pct} (h : p.toNat ≤ q.toNat) :
    (conv S r p).toNat ≤ (conv S r q).toNat := by
  rw [conv_toNat, conv_toNat]
  exact min_le_min_right _ (convRaw_mono r h)

/-- Up to 100 % the converted value is the rounded one, which increases strictly (R71 (e)). -/
theorem conv_strictMono (hS : 100 < fullScale S) (r : Config.RoundHalf) {p q : S.Pct} (h : p.toNat < q.toNat)
    (hq : q.toNat ≤ 100) : (conv S r p).toNat < (conv S r q).toNat := by
  rw [conv_toNat, conv_toNat, min_eq_left (convRaw_le_fullScale r (h.le.trans hq)), min_eq_left (convRaw_le_fullScale r hq)]
  exact convRaw_strictMono hS r h

/-- Only 0 % converts to 0 (R71 (d)): every other percentage rounds to more than 0 does. -/
theorem conv_eq_zero_iff (hS : 100 < fullScale S) (r : Config.RoundHalf) (p : S.Pct) : conv S r p = 0 ↔ p = 0 := by
  constructor
  · intro h
    by_contra hp
    have hpos : convRaw S r 0 < convRaw S r p.toNat :=
      convRaw_strictMono hS r (Nat.pos_of_ne_zero fun h0 => hp (BitVec.eq_of_toNat_eq (by simpa using h0)))
    have hzero : min (convRaw S r p.toNat) (fullScale S) = 0 := by simp [← conv_toNat, h]
    rw [convRaw_zero] at hpos
    omega
  · rintro rfl
    simp [conv]

end Sys2Proof.Machine
end

section
/-! SUPPORT. The codec in the reference shape (spec/43_color_codec.md R67 to R70): the two roundings in closed form, and the
packed word as a number. -/

namespace Sys2Proof.Machine

/-- Halves to even in the reference shape: `255p / 100` ends in .5 over an even quotient at 30, 70, 110 and so on (R67,
U2). -/
theorem convRaw_even_reference (p : Nat) :
    convRaw referenceShape .even p = if p % 40 = 30 then (255 * p + 50) / 100 - 1 else (255 * p + 50) / 100 := by
  rw [convRaw_even_eq, convRaw_up_eq, fullScale_reference]
  exact if_congr (by omega) rfl rfl

/-- Halves up, converted, in closed form (R66 to R68). -/
theorem conv_up_toNat_reference (p : Pct) :
    (conv referenceShape .up p).toNat = min ((255 * p.toNat + 50) / 100) 255 :=
  conv_toNat (S := referenceShape) .up p

/-- Halves to even, converted, in closed form: one less at 30 and 70 only, since 110 is clamped (R66 to R68, U2). -/
theorem conv_even_toNat_reference (p : Pct) :
    (conv referenceShape .even p).toNat =
      if p.toNat = 30 ∨ p.toNat = 70 then (255 * p.toNat + 50) / 100 - 1 else min ((255 * p.toNat + 50) / 100) 255 := by
  have hp : p.toNat < 128 := p.isLt
  rw [conv_toNat, fullScale_reference, convRaw_even_reference]
  split_ifs <;> omega

/-- A device value beside other bits is their lowest byte. -/
theorem toNat_append_dev {n : Nat} (x : BitVec n) (y : referenceShape.Dev) : (x ++ y).toNat = 256 * x.toNat + y.toNat := by
  have hy : y.toNat < 2 ^ 8 := y.isLt
  rw [BitVec.toNat_append, ← Nat.shiftLeft_add_eq_or_of_lt hy, Nat.shiftLeft_eq, Nat.mul_comm]

/-- The packed word as a number: green, red and blue are its bytes from the top (R69). -/
theorem packColour_toNat_reference (r : Config.RoundHalf) (pr pg pb : Pct) :
    (packColour referenceShape r pr pg pb).toNat = 65536 * (conv referenceShape r pg).toNat +
      256 * (conv referenceShape r pr).toNat + (conv referenceShape r pb).toNat := by
  rw [packColour_reference, toNat_append_dev, toNat_append_dev]
  omega

/-- The response port is wider than a packed word (R70). -/
theorem zextRsp_packed_toNat (w : referenceShape.Packed) : (zextRsp (S := referenceShape) w).toNat = w.toNat :=
  BitVec.toNat_setWidth_of_le (by decide)

/-- The packed word does not decrease in any channel, since its bytes do not (R71 (c)). -/
theorem packColour_mono_reference (r : Config.RoundHalf) {pr pg pb qr qg qb : Pct} (hr : pr.toNat ≤ qr.toNat)
    (hg : pg.toNat ≤ qg.toNat) (hb : pb.toNat ≤ qb.toNat) :
    (packColour referenceShape r pr pg pb).toNat ≤ (packColour referenceShape r qr qg qb).toNat := by
  rw [packColour_toNat_reference, packColour_toNat_reference]
  gcongr
  exacts [conv_mono r hg, conv_mono r hr, conv_mono r hb]

/-- Settles O35: the rounding is monotonic, strictly where the clamp does not act, and packing keeps the order. -/
theorem packedColourIsMonotonic : Obligations.PackedColourIsMonotonic := by
  intro r
  have hS : 100 < fullScale referenceShape := by decide
  exact ⟨packColour_off r, packColour_red r,
    fun p q pr pg pb h => ⟨packColour_mono_reference r h le_rfl le_rfl, packColour_mono_reference r le_rfl h le_rfl,
      packColour_mono_reference r le_rfl le_rfl h⟩,
    fun _ _ => conv_mono (S := referenceShape) r, conv_eq_zero_iff hS r,
    fun _ _ => conv_strictMono (S := referenceShape) hS r⟩

/-- Settles O19: the response is the packed word, whose bytes are the converted percentages; the bypass at 0 agrees with
the closed form. -/
theorem encodeRespondsPackedColour : Obligations.EncodeRespondsPackedColour := by
  intro pr pg pb s
  refine ⟨zextRsp (packColour referenceShape s.config.roundHalf pr pg pb),
    fun p => (conv referenceShape s.config.roundHalf p).toNat, ?_, ?_, fun p => ?_⟩
  · rfl
  · rw [zextRsp_packed_toNat, packColour_toNat_reference]
  · cases s.config.roundHalf with
    | up =>
      simp only [conv_up_toNat_reference, reduceCtorEq, false_and, if_false]
      split_ifs <;> omega
    | even =>
      simp only [conv_even_toNat_reference, true_and]
      split_ifs <;> omega

/-- Settles O34, from the closed form of the conversion. -/
theorem convRoundsHalvesUpAndClamps : Obligations.ConvRoundsHalvesUpAndClamps := by
  refine ⟨rfl, rfl, rfl, rfl, fun p _ => ?closed, fun p hp => ?unclamped, fun p hp => ⟨?raw, ?clamped⟩, rfl, rfl,
    fun p => ?halves⟩
  case closed => exact conv_up_toNat_reference p
  case unclamped => exact convRaw_le_fullScale (S := referenceShape) .up hp
  case raw => omega
  case clamped =>
    refine BitVec.eq_of_toNat_eq ?_
    rw [conv_up_toNat_reference, min_eq_right (by omega)]
    rfl
  case halves =>
    have h30 : p = 30 ↔ p.toNat = 30 := BitVec.toNat_inj.symm
    have h70 : p = 70 ↔ p.toNat = 70 := BitVec.toNat_inj.symm
    rw [ne_eq, ← BitVec.toNat_inj, conv_up_toNat_reference, conv_even_toNat_reference, h30, h70]
    split_ifs <;> omega

end Sys2Proof.Machine
end

section
/-! SUPPORT. What leaves the serial engine alone (spec/44_serial_engine.md R82): which of its registers a command, a HOST step
and the debouncer keep. -/

namespace Sys2Proof.Machine

variable {S : Config.Shape}

/-- `t` has the SPE at the same place of the same frame as `s`, and the same line trace: the registers of the SPE that its
view shows. -/
structure FrameKept (s t : Shaped.State S) : Prop where
  config : t.config = s.config
  txst : t.txst = s.txst
  txd : t.txd = s.txd
  widx : t.widx = s.widx
  bidx : t.bidx = s.bidx
  lt : t.lt = s.lt

/-- `t` has every register of the SPE, the hidden counters and the line too, as `s` has it. -/
structure EngineKept (s t : Shaped.State S) : Prop extends FrameKept s t where
  lcnt : t.lcnt = s.lcnt
  pcnt : t.pcnt = s.pcnt
  dout : t.dout = s.dout

theorem FrameKept.refl (s : Shaped.State S) : FrameKept s s := ⟨rfl, rfl, rfl, rfl, rfl, rfl⟩

theorem EngineKept.refl (s : Shaped.State S) : EngineKept s s := ⟨.refl s, rfl, rfl, rfl⟩

theorem FrameKept.trans {s t u : Shaped.State S} (h : FrameKept s t) (k : FrameKept t u) : FrameKept s u :=
  ⟨k.config.trans h.config, k.txst.trans h.txst, k.txd.trans h.txd, k.widx.trans h.widx, k.bidx.trans h.bidx,
    k.lt.trans h.lt⟩

/-- States of one view have the SPE at the same place. -/
theorem FrameKept.of_view_eq {s t : Shaped.State S} (h : view t = view s) : FrameKept s t :=
  ⟨congrArg View.config h, congrArg View.txst h, congrArg View.txd h, congrArg View.widx h, congrArg View.bidx h,
    congrArg View.lt h⟩

theorem FrameKept.speStepsLeft_eq {s t : Shaped.State S} (h : FrameKept s t) : speStepsLeft t = speStepsLeft s := by
  simp only [speStepsLeft, sentBits, h.txst, h.widx, h.bidx]

theorem FrameKept.currentBit_eq {s t : Shaped.State S} (h : FrameKept s t) : currentBit t = currentBit s := by
  simp only [currentBit, h.config, h.txd, h.widx, h.bidx]

-- A response, the exception, an edge, the clock, the start of a cycle and the list of turns are none of the SPE's business.
theorem engineKept_respond (v : S.Rsp) (s : Shaped.State S) : EngineKept s (respond v s) :=
  ⟨⟨rfl, rfl, rfl, rfl, rfl, rfl⟩, rfl, rfl, rfl⟩

theorem engineKept_setPend (b : Button) (v : Bool) (s : Shaped.State S) : EngineKept s (setPend b v s) :=
  ⟨⟨rfl, rfl, rfl, rfl, rfl, rfl⟩, rfl, rfl, rfl⟩

theorem engineKept_raiseIllegalCommand (s : Shaped.State S) : EngineKept s (raiseIllegalCommand s) :=
  ⟨⟨rfl, rfl, rfl, rfl, rfl, rfl⟩, rfl, rfl, rfl⟩

theorem engineKept_clockStep (n : S.Stamp) (s : Shaped.State S) : EngineKept s (clockStep n s) :=
  ⟨⟨rfl, rfl, rfl, rfl, rfl, rfl⟩, rfl, rfl, rfl⟩

theorem engineKept_beginCycle (io : Shaped.CycleIn S) (s : Shaped.State S) : EngineKept s (beginCycle io s) :=
  ⟨⟨rfl, rfl, rfl, rfl, rfl, rfl⟩, rfl, rfl, rfl⟩

theorem engineKept_setTurns (ts : List (Shaped.Turn S)) (s : Shaped.State S) : EngineKept s (setTurns ts s) :=
  ⟨⟨rfl, rfl, rfl, rfl, rfl, rfl⟩, rfl, rfl, rfl⟩

theorem engineKept_edge (b : Button) (n : S.Stamp) (s : Shaped.State S) : EngineKept s (edge b n s) := by
  obtain ⟨_, e⟩ | ⟨_, e⟩ := edgeFrom_cases s b n s <;> rw [edge, e]
  · exact ⟨⟨rfl, rfl, rfl, rfl, rfl, rfl⟩, rfl, rfl, rfl⟩
  · exact .refl s

theorem engineKept_debounceInCycle (io : Shaped.CycleIn S) (s0 s : Shaped.State S) :
    EngineKept s (debounceInCycle io s0 s) := by
  obtain ⟨_, _, e⟩ := debounceInCycle_frame io s0 s
  rw [e]
  exact ⟨⟨rfl, rfl, rfl, rfl, rfl, rfl⟩, rfl, rfl, rfl⟩

theorem frameKept_driveLine (s : Shaped.State S) : FrameKept s (driveLine s) := ⟨rfl, rfl, rfl, rfl, rfl, rfl⟩

theorem EngineKept.trans {s t u : Shaped.State S} (h : EngineKept s t) (k : EngineKept t u) : EngineKept s u :=
  ⟨h.toFrameKept.trans k.toFrameKept, k.lcnt.trans h.lcnt, k.pcnt.trans h.pcnt, k.dout.trans h.dout⟩

/-- `i` leads from `s`, in IDLE, to `t` by starting the frame of its digit: an accepted RENDER (R73). -/
def RenderAccepted (i : Instr) (s t : Shaped.State S) : Prop :=
  s.txst = .idle ∧ ∃ d g, i = .render d ∧ digitInRange d = some g ∧ t = respond 1 (startFrame g s)

/-- Everything a command can do to the SPE: an accepted RENDER starts a frame, no other command touches it (R73, R82). -/
theorem execOf_engine_cases {i : Instr} {s t : Shaped.State S} (h : execOf i s = .next t) :
    EngineKept s t ∨ RenderAccepted i s t := by
  obtain ⟨_, e⟩ | ⟨_, e⟩ | ⟨c, _, e⟩ | ⟨_, _, e⟩ | ⟨_, _, _, _, e⟩ | ⟨_, _, _, e⟩ | ⟨_, _, _, _, _, e⟩ |
    ⟨d, g, hi, hg, hidle, e⟩ := execOf_cases i s <;> cases e.symm.trans h
  case inr.inr.inl => exact .inl ((engineKept_setPend c false s).trans (engineKept_respond _ _))
  case inr.inr.inr.inr.inr.inr.inl => exact .inl (.refl s)
  case inr.inr.inr.inr.inr.inr.inr => exact .inr ⟨hidle, d, g, hi, hg, rfl⟩
  all_goals exact .inl (engineKept_respond _ s)

/-- Everything a HOST step can do to the SPE: an accepted RENDER starts a frame, else it is left alone (R48, R82). -/
theorem hostStep_engine_cases {s t : Shaped.State S} (h : hostStep s = .next t) :
    EngineKept s t ∨ ∃ w i, s.cmds.head? = some w ∧ decode (commandWord w) = .ok i ∧ RenderAccepted i s t := by
  obtain ⟨_, e⟩ | ⟨_, _, _, _, _, e⟩ | ⟨w, _, i, hc, hd, e⟩ := hostStep_cases_of s
  · cases e.symm.trans h
    exact .inl (.refl s)
  · cases e.symm.trans h
    exact .inl (engineKept_raiseIllegalCommand s)
  · obtain hk | hr := execOf_engine_cases (e.symm.trans h)
    · exact .inl hk
    · exact .inr ⟨w, i, by rw [hc]; rfl, hd, hr⟩

/-- While the SPE is busy, no HOST step touches it (R82). -/
theorem hostStep_engineKept_of_busy {s t : Shaped.State S} (hb : s.txst ≠ .idle) (h : hostStep s = .next t) :
    EngineKept s t := by
  obtain hk | ⟨_, _, _, _, hidle, _⟩ := hostStep_engine_cases h
  · exact hk
  · exact absurd hidle hb

end Sys2Proof.Machine
end

section
/-! SUPPORT. What the serial engine sends (spec/44_serial_engine.md R74 to R78): every SPE step puts the next symbol of the
frame on the line. -/

namespace Sys2Proof.Machine

variable {S : Config.Shape}

theorem speStep_of_idle {s : Shaped.State S} (h : s.txst = .idle) : speStep s = s := by rw [speStep, h]

theorem speStep_of_shift {s : Shaped.State S} (h : s.txst = .shift) : speStep s = speShift s := by rw [speStep, h]

theorem speStep_of_latch {s : Shaped.State S} (h : s.txst = .latch) : speStep s = speLatch s := by rw [speStep, h]

@[simp] theorem speStep_txd (s : Shaped.State S) : (speStep s).txd = s.txd := by
  obtain ⟨_, e⟩ | ⟨_, e⟩ | ⟨_, e⟩ := speStep_cases s <;> simp [e]

/-- How many symbols of the frame of TXD have been sent: one for each SPE step it takes but those left until IDLE (R81). -/
def sentSymbols (s : Shaped.State S) : Nat := S.wordW * S.numPixels + 1 - speStepsLeft s

theorem sentSymbols_of_shift {s : Shaped.State S} (h : s.txst = .shift) : sentSymbols s = sentBits s := by
  have hlt := sentBits_lt s
  simp only [sentSymbols, speStepsLeft, h]
  omega

theorem sentSymbols_of_latch {s : Shaped.State S} (h : s.txst = .latch) :
    sentSymbols s = S.wordW * S.numPixels := by
  simp [sentSymbols, speStepsLeft, h]

theorem sentSymbols_of_idle {s : Shaped.State S} (h : s.txst = .idle) :
    sentSymbols s = S.wordW * S.numPixels + 1 := by
  simp [sentSymbols, speStepsLeft, h]

/-- Every SPE step of a busy SPE sends one symbol (R81). -/
theorem sentSymbols_speStep {s : Shaped.State S} (hb : s.txst ≠ .idle) :
    sentSymbols (speStep s) = sentSymbols s + 1 := by
  have hle := speStepsLeft_le s
  have hne := mt (speStepsLeft_eq_zero_iff s).mp hb
  simp only [sentSymbols, speStepsLeft_speStep]
  omega

/-- The first symbols of a frame, no more than it has bits, are its first bits. -/
theorem take_frame_of_le (P : Config.Params S) (d : Fin S.nGlyph) {n : Nat} (h : n ≤ S.wordW * S.numPixels) :
    (frame P d).take n = (frameBits P d).take n := by
  rw [frame, List.take_append_of_le_length (by rw [frameBits_length]; exact h)]

/-- The symbols of a frame before its last one are its bits. -/
theorem take_frame_bits (P : Config.Params S) (d : Fin S.nGlyph) :
    (frame P d).take (S.wordW * S.numPixels) = frameBits P d := by
  rw [take_frame_of_le P d le_rfl, List.take_of_length_le (frameBits_length P d).le]

/-- As many symbols of a frame as it has are the whole frame. -/
theorem take_frame_all (P : Config.Params S) (d : Fin S.nGlyph) :
    (frame P d).take (S.wordW * S.numPixels + 1) = frame P d :=
  List.take_of_length_le (frame_length P d).le

/-- The line trace is `before` and then the part of TXD's frame that has been sent (R78). -/
def FrameSent (before : List Sym) (s : Shaped.State S) : Prop :=
  s.lt = before ++ (frame s.config s.txd).take (sentSymbols s)

theorem FrameKept.frameSent {s t : Shaped.State S} {before : List Sym} (h : FrameKept s t)
    (hs : FrameSent before s) : FrameSent before t := by
  simpa only [FrameSent, sentSymbols, h.speStepsLeft_eq, h.config, h.txd, h.lt] using hs

theorem frameSent_shift_iff {before : List Sym} {s : Shaped.State S} (h : s.txst = .shift) :
    FrameSent before s ↔ s.lt = before ++ (frameBits s.config s.txd).take (sentBits s) := by
  rw [FrameSent, sentSymbols_of_shift h, take_frame_of_le _ _ (sentBits_lt s).le]

theorem frameSent_latch_iff {before : List Sym} {s : Shaped.State S} (h : s.txst = .latch) :
    FrameSent before s ↔ s.lt = before ++ frameBits s.config s.txd := by
  rw [FrameSent, sentSymbols_of_latch h, take_frame_bits]

theorem frameSent_idle_iff {before : List Sym} {s : Shaped.State S} (h : s.txst = .idle) :
    FrameSent before s ↔ s.lt = before ++ frame s.config s.txd := by
  rw [FrameSent, sentSymbols_of_idle h, take_frame_all]

/-- A frame starts with nothing of it sent (R73). -/
theorem frameSent_startFrame (g : Fin S.nGlyph) (s : Shaped.State S) : FrameSent s.lt (startFrame g s) := by
  rw [frameSent_shift_iff rfl]
  simp [sentBits]

/-- Every SPE step of a busy SPE sends the next symbol of the frame: in SHIFT a bit, in LATCH its `Latch` (R78). -/
theorem FrameSent.after_speStep {before : List Sym} {s : Shaped.State S} (hs : FrameSent before s)
    (hb : s.txst ≠ .idle) : FrameSent before (speStep s) := by
  rw [FrameSent, sentSymbols_speStep hb, speStep_config, speStep_txd]
  obtain ⟨h, _⟩ | ⟨h, e⟩ | ⟨h, e⟩ := speStep_cases s
  · exact absurd h hb
  · rw [frameSent_shift_iff h] at hs
    rw [e, speShift_lt, hs, sentSymbols_of_shift h, take_frame_of_le _ _ (sentBits_lt s), ← frameBits_take_succ,
      List.append_assoc]
  · rw [frameSent_latch_iff h] at hs
    rw [e, speLatch_lt, hs, sentSymbols_of_latch h, take_frame_all, frame, List.append_assoc]

/-- Every SPE step of a busy SPE appends one symbol to the line trace (R74, R76). -/
theorem speStep_lt_of_busy {s : Shaped.State S} (hb : s.txst ≠ .idle) : ∃ x, (speStep s).lt = s.lt ++ [x] := by
  obtain ⟨h, _⟩ | ⟨_, e⟩ | ⟨_, e⟩ := speStep_cases s
  · exact absurd h hb
  · exact ⟨_, by rw [e, speShift_lt]⟩
  · exact ⟨_, by rw [e, speLatch_lt]⟩

end Sys2Proof.Machine
end

section
/-! SUPPORT. The machine's invariant (spec/44_serial_engine.md R75 to R78, spec/20_memory.md R24): what each operation of a
step asks for to keep it. -/

namespace Sys2Proof.Machine

variable {S : Config.Shape}

theorem FrameKept.lineFramed {s t : Shaped.State S} (h : FrameKept s t) (hs : LineFramed s) : LineFramed t := by
  simpa only [LineFramed, sentBits, h.config, h.txst, h.txd, h.widx, h.bidx, h.lt] using hs

/-- `Latch`, whole frames and the part of TXD's frame that has been sent are a framed line. -/
theorem lineFramed_of_frameSent {s : Shaped.State S} {ds : List (Fin S.nGlyph)}
    (hs : FrameSent (.latch :: ds.flatMap (frame s.config)) s) : LineFramed s := by
  unfold LineFramed
  cases h : s.txst with
  | idle => exact ⟨ds ++ [s.txd], by simpa using (frameSent_idle_iff h).mp hs⟩
  | shift => exact ⟨ds, (frameSent_shift_iff h).mp hs⟩
  | latch => exact .inr ⟨ds, (frameSent_latch_iff h).mp hs⟩

/-- What a busy SPE has on a framed line: nothing in the gap after reset, else `Latch`, whole frames and the part of TXD's
frame that has been sent. -/
theorem LineFramed.of_busy {s : Shaped.State S} (hs : LineFramed s) (hb : s.txst ≠ .idle) :
    (s.txst = .latch ∧ s.lt = []) ∨ ∃ ds : List (Fin S.nGlyph), FrameSent (.latch :: ds.flatMap (frame s.config)) s := by
  unfold LineFramed at hs
  cases h : s.txst with
  | idle => exact absurd h hb
  | shift =>
    simp only [h] at hs
    obtain ⟨ds, hs⟩ := hs
    exact .inr ⟨ds, (frameSent_shift_iff h).mpr hs⟩
  | latch =>
    simp only [h] at hs
    obtain h0 | ⟨ds, hs⟩ := hs
    · exact .inl ⟨rfl, h0⟩
    · exact .inr ⟨ds, (frameSent_latch_iff h).mpr hs⟩

/-- An SPE step keeps the line framed: the next symbol of the frame, or the first `Latch` after reset (R78, R94). -/
theorem LineFramed.after_speStep {s : Shaped.State S} (hs : LineFramed s) : LineFramed (speStep s) := by
  by_cases hb : s.txst = .idle
  · rwa [speStep_of_idle hb]
  obtain ⟨h, h0⟩ | ⟨ds, hsent⟩ := hs.of_busy hb
  · rw [speStep_of_latch h]
    exact ⟨[], by simp [h0]⟩
  · exact lineFramed_of_frameSent (ds := ds) (by simpa using hsent.after_speStep hb)

/-- An accepted RENDER keeps the line framed: nothing of its frame has been sent (R73). -/
theorem LineFramed.after_startFrame {s : Shaped.State S} (hs : LineFramed s) (hidle : s.txst = .idle)
    (g : Fin S.nGlyph) : LineFramed (startFrame g s) := by
  simp only [LineFramed, hidle] at hs
  obtain ⟨ds, hs⟩ := hs
  exact lineFramed_of_frameSent (ds := ds) (by simpa [hs] using frameSent_startFrame g s)

/-- What leaves the SPE alone keeps the invariant, if the response it leaves on offer is the last one. -/
theorem MachineInvariant.of_engineKept {s t : Shaped.State S} (hs : MachineInvariant s) (h : EngineKept s t)
    (hr : t.rspValid = true → t.responses.getLast? = some t.rspData) : MachineInvariant t where
  lineLow := by simpa only [h.txst, h.dout] using hs.lineLow
  phaseClear := by simpa only [h.txst, h.pcnt] using hs.phaseClear
  phaseBound := by simpa only [h.config, h.pcnt] using hs.phaseBound
  gapClear := by simpa only [h.txst, h.lcnt] using hs.gapClear
  gapBound := by simpa only [h.config, h.lcnt] using hs.gapBound
  response := hr
  framed := h.lineFramed hs.framed

/-- A response given is the last one, and on offer (R24). -/
theorem MachineInvariant.after_respond {s : Shaped.State S} (hs : MachineInvariant s) (v : S.Rsp) :
    MachineInvariant (respond v s) :=
  hs.of_engineKept (engineKept_respond v s) (by simp)

theorem MachineInvariant.after_startFrame {s : Shaped.State S} (hs : MachineInvariant s) (hidle : s.txst = .idle)
    (g : Fin S.nGlyph) : MachineInvariant (startFrame g s) where
  lineLow := fun h => absurd rfl h
  phaseClear := fun h => absurd rfl h
  phaseBound := hs.phaseBound
  gapClear := fun _ => hs.gapClear (by simp [hidle])
  gapBound := hs.gapBound
  response := hs.response
  framed := hs.framed.after_startFrame hidle g

/-- The state after a reset edge meets the invariant, from any state: the line is low for a full gap (R93). -/
theorem machineInvariant_resetBlock (s : Shaped.State S) : MachineInvariant (resetBlock s) where
  lineLow := fun _ => rfl
  phaseClear := fun _ => rfl
  phaseBound := .inl rfl
  gapClear := fun h => absurd rfl h
  gapBound := le_rfl
  response := nofun
  framed := .inl rfl

theorem MachineInvariant.after_speShift {s : Shaped.State S} (hs : MachineInvariant s) (h : s.txst = .shift) :
    MachineInvariant (speShift s) where
  lineLow := fun _ => rfl
  phaseClear := fun _ => rfl
  phaseBound := .inl rfl
  gapClear := fun hl => by
    obtain ⟨_, e, _⟩ | ⟨_, ht, _⟩ := speShift_progress s
    · rw [e]; exact hs.gapClear (by simp [h])
    · exact absurd ht hl
  gapBound := by
    rw [speShift_config]
    obtain ⟨_, e, _⟩ | ⟨_, _, e⟩ := speShift_progress s
    · rw [e]; exact hs.gapBound
    · exact e.le
  response := by simpa using hs.response
  framed := speStep_of_shift h ▸ hs.framed.after_speStep

theorem MachineInvariant.after_speLatch {s : Shaped.State S} (hs : MachineInvariant s) (h : s.txst = .latch) :
    MachineInvariant (speLatch s) where
  lineLow := fun _ => rfl
  phaseClear := fun _ => hs.phaseClear (by simp [h])
  phaseBound := hs.phaseBound
  gapClear := fun _ => rfl
  gapBound := Nat.zero_le _
  response := hs.response
  framed := speStep_of_latch h ▸ hs.framed.after_speStep

theorem MachineInvariant.after_speStep {s : Shaped.State S} (hs : MachineInvariant s) : MachineInvariant (speStep s) := by
  obtain ⟨_, e⟩ | ⟨h, e⟩ | ⟨h, e⟩ := speStep_cases s <;> rw [e]
  · exact hs
  · exact hs.after_speShift h
  · exact hs.after_speLatch h

/-- The SPE's part of a cycle: a counter moves inside its range, or the SPE takes a step (R75, R76, R79). -/
theorem MachineInvariant.after_speInCycle {s0 s : Shaped.State S} (hs : MachineInvariant s) (h0 : SpeSeesStart s0 s) :
    MachineInvariant (speInCycle s0 s) := by
  have sees {x : TxState} (hx : s0.txst = x) (hb : x ≠ .idle) : s.txst = x := (h0.txst (hx ▸ hb)).trans hx
  obtain e | ⟨hx, hp, e⟩ | ⟨hx, e⟩ | ⟨hx, _, e⟩ | ⟨hx, _, e⟩ := speInCycle_cases s0 s <;> rw [e]
  · exact hs
  · have h := sees hx (by decide)
    exact { hs with
      lineLow := fun hn => absurd h hn
      phaseClear := fun hn => absurd h hn
      phaseBound := .inr hp }
  · exact hs.after_speShift (sees hx (by decide))
  · exact hs.after_speLatch (sees hx (by decide))
  · have h := sees hx (by decide)
    exact { hs with
      gapClear := fun hn => absurd h hn
      gapBound := (Nat.sub_le _ _).trans hs.gapBound }

/-- The line is high in the first T1H or T0H cycles of a bit period, and low in every other state (R77, R79, R80). -/
theorem lineLevel_eq_true_iff (s : Shaped.State S) :
    lineLevel s = true ↔ s.txst = .shift ∧ s.pcnt < highCycles s.config (currentBit s) := by
  cases h : s.txst <;> simp [lineLevel, h]

theorem MachineInvariant.after_driveLine {s : Shaped.State S} (hs : MachineInvariant s) : MachineInvariant (driveLine s) :=
  { hs with
    lineLow := fun h => by
      rw [← Bool.not_eq_true]
      exact fun hd => h ((lineLevel_eq_true_iff s).mp hd).1 }

/-- The rest of the block after the HOST step in a cycle (R26). -/
theorem MachineInvariant.after_clockBlock {s0 s : Shaped.State S} (hs : MachineInvariant s) (h0 : SpeSeesStart s0 s)
    (io : Shaped.CycleIn S) : MachineInvariant (clockBlock io s0 s) := by
  have hd : MachineInvariant (debounceInCycle io s0 s) :=
    hs.of_engineKept (engineKept_debounceInCycle io s0 s) (by simpa using hs.response)
  exact (hd.after_speInCycle (h0.after_debounce io)).after_driveLine

/-- After a HOST step that changes the state, the response data is that of the last response given (R24). -/
theorem hostStep_response {s t : Shaped.State S} (h : hostStep s = .next t) :
    t = s ∨ t.responses.getLast? = some t.rspData := by
  obtain ⟨e, _⟩ | ⟨_, _, _, _, _, rfl⟩ | ⟨_, _, _, _, _, rfl⟩ | ⟨_, rfl⟩ | ⟨_, rfl⟩ := hostStep_next_cases h
  · exact .inl e
  all_goals exact .inr (by simp)

theorem MachineInvariant.after_hostStep {s t : Shaped.State S} (hs : MachineInvariant s) (h : hostStep s = .next t) :
    MachineInvariant t := by
  obtain hk | ⟨_, _, _, _, hidle, _, g, _, _, rfl⟩ := hostStep_engine_cases h
  · refine hs.of_engineKept hk fun hv => ?_
    obtain rfl | hr := hostStep_response h
    · exact hs.response hv
    · exact hr
  · exact (hs.after_startFrame hidle g).after_respond 1

theorem MachineInvariant.after_beginCycle {s : Shaped.State S} (hs : MachineInvariant s) (io : Shaped.CycleIn S) :
    MachineInvariant (beginCycle io s) :=
  hs.of_engineKept (engineKept_beginCycle io s) nofun

/-- Every turn of every agent keeps the invariant, a cycle with reset too. -/
theorem MachineInvariant.after_takeTurn {x : Shaped.Turn S} {s t : Shaped.State S} (hs : MachineInvariant s)
    (h : takeTurn x s = .next t) : MachineInvariant t := by
  cases x with
  | host => exact hs.after_hostStep h
  | btn b =>
    cases h
    refine hs.of_engineKept (engineKept_edge b s.now s) ?_
    obtain ⟨_, e⟩ | ⟨_, e⟩ := edgeFrom_cases s b s.now s <;> simpa [edge, e] using hs.response
  | clock n => cases h; exact hs.of_engineKept (engineKept_clockStep n s) hs.response
  | spe => cases h; exact hs.after_speStep
  | cycle io =>
    obtain ⟨_, rfl⟩ | ⟨_, u, rfl, ⟨_, hu⟩ | ⟨_, rfl⟩⟩ := cycle_cases io s t h
    · exact machineInvariant_resetBlock _
    · exact ((hs.after_beginCycle io).after_hostStep hu).after_clockBlock (hostStep_agentsSeeStart hu).toSpeSeesStart io
    · exact (hs.after_beginCycle io).after_clockBlock (AgentsSeeStart.refl _).toSpeSeesStart io

/-- Settles O46: a step is a turn, and every turn keeps the invariant. -/
theorem everyStepKeepsInvariant : Obligations.EveryStepKeepsInvariant := by
  intro s t hs h
  obtain ⟨rest, e⟩ := step_eq s
  have hs' : MachineInvariant (setTurns rest s) := hs.of_engineKept (engineKept_setTurns rest s) hs.response
  exact hs'.after_takeTurn (e ▸ h)

end Sys2Proof.Machine
end

section
/-! SUPPORT. What a turn does to the frame in flight (spec/44_serial_engine.md R77, R78, R81, R82): every turn but a reset
leaves it alone, starts it or takes one SPE step. -/

namespace Sys2Proof.Machine

variable {S : Config.Shape}

/-- A turn that leads from `s` to `t` starts the frame of an accepted RENDER, with nothing on the line yet (R73). -/
structure FrameStarted (s t : Shaped.State S) : Prop where
  idle : s.txst = .idle
  presented : ∃ w d, s.cmds.head? = some w ∧ decode (commandWord w) = .ok (.render d) ∧ t.txd.val = d.toNat
  txst : t.txst = .shift
  widx : t.widx.val = 0
  bidx : t.bidx = topBit S
  lt : t.lt = s.lt
  responses : t.responses = s.responses ++ [1]

/-- A turn that leads from `s` to `t` takes one SPE step of a busy SPE, and does nothing else to its frame. -/
structure FrameStepped (s t : Shaped.State S) : Prop where
  busy : s.txst ≠ .idle
  step : ∃ u, FrameKept s u ∧ FrameKept (speStep u) t

/-- Everything a turn `x` but a reset that leads from `s` to `t` can do to the frame in flight (R73, R77, R82). -/
inductive FrameMove (x : Shaped.Turn S) (s t : Shaped.State S) : Prop where
  /-- It leaves the frame alone: every turn of another agent than the SPE can, the SPE's only in IDLE. -/
  | kept (h : FrameKept s t) (rests : x = .spe → s.txst = .idle)
  /-- An accepted RENDER starts the frame. -/
  | started (h : FrameStarted s t)
  /-- The SPE takes one step, in its own turn or in a cycle. -/
  | stepped (h : FrameStepped s t) (turn : x = .spe ∨ ∃ io, x = .cycle io)

/-- While the SPE is busy no frame starts, and a turn of the SPE takes a step. -/
theorem FrameMove.of_busy {x : Shaped.Turn S} {s t : Shaped.State S} (h : FrameMove x s t) (hb : s.txst ≠ .idle) :
    (FrameKept s t ∧ x ≠ .spe) ∨ (FrameStepped s t ∧ (x = .spe ∨ ∃ io, x = .cycle io)) := by
  cases h with
  | kept hk rests => exact .inl ⟨hk, fun hspe => hb (rests hspe)⟩
  | started hs => exact absurd hs.idle hb
  | stepped hstep turn => exact .inr ⟨hstep, turn⟩

theorem toNat_of_digitInRange {d : BitVec 8} {g : Fin S.nGlyph} (h : digitInRange d = some g) : g.val = d.toNat := by
  unfold digitInRange at h
  split at h
  · cases h; rfl
  · cases h

/-- Everything a HOST step can do to the frame in flight: an accepted RENDER starts one, else it is left alone. -/
theorem hostStep_frame_cases {s t : Shaped.State S} (h : hostStep s = .next t) : FrameKept s t ∨ FrameStarted s t := by
  obtain hk | ⟨w, _, hw, hd, hidle, d, g, rfl, hg, rfl⟩ := hostStep_engine_cases h
  · exact .inl hk.toFrameKept
  · exact .inr ⟨hidle, ⟨w, d, hw, hd, toNat_of_digitInRange hg⟩, rfl, rfl, rfl, rfl, rfl⟩

theorem busy_of_speFires {s : Shaped.State S} (h : speFires s = true) : s.txst ≠ .idle := fun hidle => by
  rw [speFires, hidle] at h
  cases h

/-- Everything the rest of the block can do in a cycle to the frame in flight: one SPE step if the SPE fires, else nothing
(R26). -/
theorem clockBlock_frame_cases {s0 s : Shaped.State S} (io : Shaped.CycleIn S) (h : SpeSeesStart s0 s) :
    (speFires s0 = false ∧ FrameKept s (clockBlock io s0 s)) ∨
    (speFires s0 = true ∧ FrameStepped s (clockBlock io s0 s)) := by
  have hd := (engineKept_debounceInCycle io s0 s).toFrameKept
  have hsees := h.after_debounce io
  cases hf : speFires s0 with
  | false =>
    have hview := FrameKept.of_view_eq (view_speInCycle_of_not_speFires hsees hf)
    exact .inl ⟨rfl, (hd.trans hview).trans (frameKept_driveLine _)⟩
  | true =>
    have hb := busy_of_speFires hf
    refine .inr ⟨rfl, by rwa [h.txst hb], _, hd, ?_⟩
    rw [← speInCycle_of_speFires hsees hf]
    exact frameKept_driveLine _

/-- Everything a cycle without reset can do to the frame in flight (R26). -/
theorem cycle_frame_cases {io : Shaped.CycleIn S} {s t : Shaped.State S} (hr : io.rstN = true)
    (h : cycle io s = .next t) : FrameKept s t ∨ FrameStarted s t ∨ FrameStepped s t := by
  obtain ⟨u, e, hsees, presents, silent⟩ := cycle_next s hr
  cases e.symm.trans h
  have hbegin := (engineKept_beginCycle io s).toFrameKept
  have hhost : FrameKept (beginCycle io s) u ∨ FrameStarted (beginCycle io s) u := by
    cases hv : io.cmdValid with
    | false => rw [silent hv]; exact .inl (.refl _)
    | true => exact hostStep_frame_cases (presents hv)
  obtain hk | ⟨hidle, hw, ht, hwidx, hbidx, hlt, hrsp⟩ := hhost <;>
    obtain ⟨hf, hblock⟩ | ⟨hf, hb, v, hv, hstep⟩ := clockBlock_frame_cases io hsees.toSpeSeesStart
  · exact .inl ((hbegin.trans hk).trans hblock)
  · exact .inr (.inr ⟨by rw [hk.txst] at hb; exact hb, v, (hbegin.trans hk).trans hv, hstep⟩)
  · refine .inr (.inl ⟨hidle, ?_, hblock.txst.trans ht, ?_, hblock.bidx.trans hbidx, hblock.lt.trans hlt, ?_⟩)
    · rw [hblock.txd]; exact hw
    · rw [hblock.widx]; exact hwidx
    · rw [clockBlock_responses]; exact hrsp
  · exact absurd hidle (busy_of_speFires hf)

/-- Every turn but a reset leaves the frame in flight alone, starts it or takes one SPE step. -/
theorem takeTurn_frameMove {x : Shaped.Turn S} {s t : Shaped.State S} (hx : x.isReset = false)
    (h : takeTurn x s = .next t) : FrameMove x s t := by
  cases x with
  | host =>
    obtain hk | hs := hostStep_frame_cases h
    · exact .kept hk nofun
    · exact .started hs
  | btn b => cases h; exact .kept (engineKept_edge b s.now s).toFrameKept nofun
  | clock n => cases h; exact .kept (engineKept_clockStep n s).toFrameKept nofun
  | spe =>
    cases h
    by_cases hidle : s.txst = .idle
    · exact .kept (by rw [speStep_of_idle hidle]; exact .refl s) fun _ => hidle
    · exact .stepped ⟨hidle, s, .refl s, .refl _⟩ (.inl rfl)
  | cycle io =>
    obtain hk | hs | hstep := cycle_frame_cases (by simpa [Shaped.Turn.isReset] using hx) h
    · exact .kept hk nofun
    · exact .started hs
    · exact .stepped hstep (.inr ⟨io, rfl⟩)

/-- Every step but a reset does, by the turn of the state. -/
theorem step_frameMove {s t : State} (hx : (currentTurn s).isReset = false) (h : step s = .next t) :
    FrameMove (currentTurn s) s t := by
  obtain ⟨rest, e⟩ := step_eq s
  have hturns := (engineKept_setTurns rest s).toFrameKept
  cases takeTurn_frameMove hx (e ▸ h) with
  | kept hk rests => exact .kept (hturns.trans hk) rests
  | started hs =>
    obtain ⟨hidle, hw, ht, hwidx, hbidx, hlt, hrsp⟩ := hs
    exact .started ⟨hidle, hw, ht, hwidx, hbidx, hlt, hrsp⟩
  | stepped hstep turn =>
    obtain ⟨hb, u, hu, ht⟩ := hstep
    exact .stepped ⟨hb, u, hturns.trans hu, ht⟩ turn

theorem FrameStepped.config_eq {s t : Shaped.State S} (h : FrameStepped s t) : t.config = s.config := by
  obtain ⟨_, u, hu, ht⟩ := h
  rw [ht.config, speStep_config, hu.config]

theorem FrameStepped.txd_eq {s t : Shaped.State S} (h : FrameStepped s t) : t.txd = s.txd := by
  obtain ⟨_, u, hu, ht⟩ := h
  rw [ht.txd, speStep_txd, hu.txd]

/-- An SPE step leads from SHIFT to SHIFT or LATCH, from LATCH to IDLE (R75, R76). -/
theorem FrameStepped.txst_cases {s t : Shaped.State S} (h : FrameStepped s t) :
    t.txst = s.txst ∨ (s.txst = .shift ∧ t.txst = .latch) ∨ (s.txst = .latch ∧ t.txst = .idle) := by
  obtain ⟨hb, u, hu, ht⟩ := h
  rw [ht.txst, ← hu.txst]
  rw [← hu.txst] at hb
  obtain ⟨hidle, _⟩ | ⟨hs, e⟩ | ⟨hs, e⟩ := speStep_cases u
  · exact absurd hidle hb
  · obtain ⟨hkept, _⟩ | ⟨_, hlatch, _⟩ := speShift_progress u
    · exact .inl (by rw [e, hkept])
    · exact .inr (.inl ⟨hs, by rw [e, hlatch]⟩)
  · exact .inr (.inr ⟨hs, by rw [e]; rfl⟩)

/-- An SPE step brings IDLE one step nearer (R81). -/
theorem FrameStepped.speStepsLeft_eq {s t : Shaped.State S} (h : FrameStepped s t) :
    speStepsLeft t + 1 = speStepsLeft s := by
  obtain ⟨hb, u, hu, ht⟩ := h
  have hne := mt (speStepsLeft_eq_zero_iff s).mp hb
  rw [ht.speStepsLeft_eq, speStepsLeft_speStep, hu.speStepsLeft_eq]
  omega

theorem FrameStepped.lt_eq {s t : Shaped.State S} (h : FrameStepped s t) : ∃ x, t.lt = s.lt ++ [x] := by
  obtain ⟨hb, u, hu, ht⟩ := h
  rw [← hu.txst] at hb
  rw [ht.lt, ← hu.lt]
  exact speStep_lt_of_busy hb

theorem FrameStepped.frameSent {s t : Shaped.State S} {before : List Sym} (h : FrameStepped s t)
    (hs : FrameSent before s) : FrameSent before t := by
  obtain ⟨hb, u, hu, ht⟩ := h
  rw [← hu.txst] at hb
  exact ht.frameSent ((hu.frameSent hs).after_speStep hb)

/-- Every turn but a reset of a busy SPE keeps on the line the part of the frame that has been sent, and the parameters and
the digit that tell it (R78, R82). -/
theorem frameSent_takeTurn {x : Shaped.Turn S} {s t : Shaped.State S} {before : List Sym} (hs : FrameSent before s)
    (hb : s.txst ≠ .idle) (hx : x.isReset = false) (h : takeTurn x s = .next t) :
    t.config = s.config ∧ t.txd = s.txd ∧ FrameSent before t := by
  obtain ⟨hk, _⟩ | ⟨hstep, _⟩ := (takeTurn_frameMove hx h).of_busy hb
  · exact ⟨hk.config, hk.txd, hk.frameSent hs⟩
  · exact ⟨hstep.config_eq, hstep.txd_eq, hstep.frameSent hs⟩

/-- The same through a schedule without reset in which the SPE has not been back in IDLE before its end (R78). -/
theorem frameSent_runTurns {ts : List (Shaped.Turn S)} {s t : Shaped.State S} {before : List Sym}
    (hs : FrameSent before s) (hx : ∀ x ∈ ts, x.isReset = false) (h : runTurns ts s = .next t)
    (hb : ∀ n, n < ts.length → ∀ u, runTurns (ts.take n) s = .next u → u.txst ≠ .idle) :
    t.config = s.config ∧ t.txd = s.txd ∧ FrameSent before t := by
  induction ts generalizing s with
  | nil => cases h; exact ⟨rfl, rfl, hs⟩
  | cons x xs ih =>
    have hbusy : s.txst ≠ .idle := hb 0 (Nat.succ_pos _) s rfl
    obtain ⟨u, hu⟩ := takeTurn_goes_on x s
    obtain ⟨hcfg, htxd, hsent⟩ := frameSent_takeTurn hs hbusy (hx x (List.mem_cons_self ..)) hu
    simp only [runTurns, hu] at h
    obtain ⟨hcfg', htxd', hsent'⟩ := ih hsent (fun y hy => hx y (List.mem_cons_of_mem x hy)) h
      fun n hn v hv => hb (n + 1) (Nat.succ_lt_succ hn) v (by simpa only [List.take_succ_cons, runTurns, hu] using hv)
    exact ⟨hcfg'.trans hcfg, htxd'.trans htxd, hsent'⟩

/-- A schedule of the agents' own turns that gives the SPE fewer turns than steps are left until IDLE: the SPE has taken one
step in each of its turns, and none in the others (R81). -/
theorem runTurns_frame_of_count_lt {ts : List (Shaped.Turn S)} {s : Shaped.State S} {before : List Sym}
    (hs : FrameSent before s) (hx : ∀ x ∈ ts, ∀ io, x ≠ .cycle io) (hc : ts.count .spe < speStepsLeft s) :
    ∃ t, runTurns ts s = .next t ∧ t.config = s.config ∧ t.txd = s.txd ∧ FrameSent before t ∧
      speStepsLeft t + ts.count .spe = speStepsLeft s := by
  induction ts generalizing s with
  | nil => exact ⟨s, rfl, rfl, rfl, hs, rfl⟩
  | cons x xs ih =>
    have hbusy : s.txst ≠ .idle := fun hidle => by
      rw [(speStepsLeft_eq_zero_iff s).mpr hidle] at hc
      cases hc
    have hnc := hx x (List.mem_cons_self ..)
    have hnr : x.isReset = false := by
      cases x with
      | cycle io => exact absurd rfl (hnc io)
      | _ => rfl
    obtain ⟨u, hu⟩ := takeTurn_goes_on x s
    obtain ⟨hcfg, htxd, hsent⟩ := frameSent_takeTurn hs hbusy hnr hu
    have hleft : speStepsLeft u + (if x = .spe then 1 else 0) = speStepsLeft s := by
      obtain ⟨hk, hne⟩ | ⟨hstep, rfl | ⟨io, rfl⟩⟩ := (takeTurn_frameMove hnr hu).of_busy hbusy
      · simpa [hne] using hk.speStepsLeft_eq
      · simpa using hstep.speStepsLeft_eq
      · exact absurd rfl (hnc io)
    have hcount : (x :: xs).count .spe = xs.count .spe + if x = .spe then 1 else 0 := by
      simp [List.count_cons]
    obtain ⟨t, ht, hcfg', htxd', hsent', hleft'⟩ :=
      ih hsent (fun y hy => hx y (List.mem_cons_of_mem x hy)) (by omega)
    exact ⟨t, by simpa only [runTurns, hu] using ht, hcfg'.trans hcfg, htxd'.trans htxd, hsent', by omega⟩

/-- All the steps of a frame are left when it starts (R73, R81). -/
theorem speStepsLeft_startFrame (g : Fin S.nGlyph) (s : Shaped.State S) :
    speStepsLeft (startFrame g s) = S.wordW * S.numPixels + 1 := by
  simp [speStepsLeft, sentBits]

/-- After `k` SPE steps, `k` fewer are left until IDLE (R81). -/
theorem speStepsLeft_iterate (k : Nat) (s : Shaped.State S) :
    speStepsLeft (speStep^[k] s) = speStepsLeft s - k := by
  induction k with
  | zero => rfl
  | succ k ih => rw [Function.iterate_succ_apply', speStepsLeft_speStep, ih, Nat.sub_sub]

end Sys2Proof.Machine
end

section
/-! SUPPORT. The statements on the frame in flight (spec/44_serial_engine.md R73, R77, R78, R81, R82). -/

namespace Sys2Proof.Machine

/-- Settles O40: of all that a step but a reset can do to the frame, only a start leaves IDLE, and the word presented is its
RENDER. -/
theorem onlyInRangeRenderLeavesIdle : Obligations.OnlyInRangeRenderLeavesIdle := by
  intro s t h hidle hleaves hnr
  cases step_frameMove hnr h with
  | kept hk _ => exact absurd (hk.txst.trans hidle) hleaves
  | started hs =>
    obtain ⟨w, d, hw, hd, htxd⟩ := hs.presented
    rw [commandWord_reference] at hd
    rw [← encode_of_decode hd] at hw
    exact ⟨d, hw, htxd, hs.txst, hs.widx, congrArg Fin.val hs.bidx, hs.lt, hs.responses⟩
  | stepped hstep _ => exact absurd hidle hstep.busy

/-- Settles O42: a step of a busy SPE leaves the frame alone or is one SPE step, and an accepted RENDER, the one command
that writes the SPE, needs IDLE. -/
theorem busyFrameIsNotDisturbed : Obligations.BusyFrameIsNotDisturbed := by
  constructor
  · intro s t h hb hnr
    obtain ⟨hk, _⟩ | ⟨hstep, _⟩ := (step_frameMove hnr h).of_busy hb
    · exact ⟨hk.txd, .inl hk.txst⟩
    · exact ⟨hstep.txd_eq, hstep.txst_cases⟩
  · intro i s t h hb
    rw [← execOf_eq_exec] at h
    obtain ⟨hframe, hlcnt, hpcnt, hdout⟩ | ⟨hidle, _⟩ := execOf_engine_cases h
    · exact ⟨hframe.txst, hframe.txd, hframe.widx, hframe.bidx, hlcnt, hpcnt, hdout, hframe.lt⟩
    · exact absurd hidle hb

/-- Settles O43: a step of a busy SPE leaves the frame alone or is one SPE step, in a turn of the SPE or a cycle. -/
theorem onlySpeStepsAdvanceTheFrame : Obligations.OnlySpeStepsAdvanceTheFrame := by
  intro s t h hb hnr
  obtain ⟨hk, hturn⟩ | ⟨hstep, hturn⟩ := (step_frameMove hnr h).of_busy hb
  · exact .inl ⟨hturn, hk.speStepsLeft_eq, hk.lt⟩
  · exact .inr ⟨hstep.speStepsLeft_eq, hstep.lt_eq, hturn⟩

/-- Settles O44: each SPE step takes one off the steps left, and IDLE is where none is left. -/
theorem speReachesIdleWithin601Steps : Obligations.SpeReachesIdleWithin601Steps := by
  intro s _
  refine ⟨speStepsLeft_le s, ?_, fun k hk => ?_⟩
  · rw [← speStepsLeft_eq_zero_iff, speStepsLeft_iterate, Nat.sub_self]
  · rw [ne_eq, ← speStepsLeft_eq_zero_iff, speStepsLeft_iterate]
    omega

/-- Settles O45: the frame starts with nothing of it sent; until IDLE every turn keeps what is on the line the part sent,
and the 601st SPE turn is the last step. -/
theorem acceptedRenderSendsWholeFrame : Obligations.AcceptedRenderSendsWholeFrame := by
  intro s u d h hidle hexec
  rw [← execOf_eq_exec, execOf_render_idle h hidle] at hexec
  cases hexec
  have hsent : FrameSent s.lt (respond 1 (startFrame ⟨d.toNat, h⟩ s)) :=
    (engineKept_respond 1 _).frameSent (frameSent_startFrame _ s)
  refine ⟨fun ts v hts hrun hbusy => ?_, fun ts hts hcount => ?_⟩
  · obtain ⟨hcfg, htxd, hv⟩ := frameSent_runTurns hsent hts hrun hbusy
    have hline : v.lt = s.lt ++ (frame s.config ⟨d.toNat, h⟩).take (sentSymbols v) := by
      rw [hv, hcfg, htxd]; rfl
    refine ⟨hline, fun hvidle => ?_⟩
    rw [hline, sentSymbols_of_idle hvidle, take_frame_all]
  · have hall : speStepsLeft (respond 1 (startFrame ⟨d.toNat, h⟩ s)) = 601 :=
      (engineKept_respond 1 _).speStepsLeft_eq.trans (speStepsLeft_startFrame _ s)
    obtain ⟨v, hrun, hcfg, htxd, hv, hleft⟩ := runTurns_frame_of_count_lt hsent hts (by omega)
    have hone : speStepsLeft v = 1 := by omega
    have hbusy : v.txst ≠ .idle := by rw [ne_eq, ← speStepsLeft_eq_zero_iff, hone]; decide
    have hlast : (speStep v).txst = .idle := by rw [← speStepsLeft_eq_zero_iff, speStepsLeft_speStep, hone]
    refine ⟨speStep v, runTurns_concat .spe hrun, hlast, ?_⟩
    rw [(frameSent_idle_iff hlast).mp (hv.after_speStep hbusy), speStep_config, speStep_txd, hcfg, htxd]
    rfl

end Sys2Proof.Machine
end

section
/-! SUPPORT. The frame symbol by symbol (spec/44_serial_engine.md R75, R78; spec/42_glyph_rom.md R64). -/

namespace Sys2Proof.Machine

/-- Full red has its ones in bits 8 to 15, the red byte (R31). -/
theorem getLsbD_red : ∀ b < 24, (0x00FF00#24).getLsbD b = (decide (8 ≤ b) && decide (b ≤ 15)) := by decide

/-- A bit of a word of the frame, where LIT_COLOUR is full red: 1 exactly in the red byte of a lit cell (R63, R64). -/
theorem frameWord_getLsbD {P : Params} (hred : P.litColour = (100, 0, 0)) (d : Digit) (i : Cell) {b : Nat} (hb : b < 24) :
    (frameWord P d i).getLsbD b = ((romRead P d).getLsbD i && decide (8 ≤ b) && decide (b ≤ 15)) := by
  by_cases hlit : (romRead P d).getLsbD i = true
  · rw [frameWord_of_lit hlit, hred, packColour_red, hlit, Bool.true_and]
    exact getLsbD_red b hb
  · rw [frameWord_of_unlit hlit, packColour_off, (Bool.not_eq_true _).mp hlit]
    simp

/-- Symbol `k` of the frame in the reference shape is bit `23 - k mod 24` of word `k div 24` (R75, R78). -/
theorem frameBits_getElem?_reference (P : Params) (d : Digit) {k : Nat} (hk : k < 600) :
    (frameBits P d)[k]? =
      some (.bit ((frameWord P d ⟨k / 24, Nat.div_lt_of_lt_mul hk⟩).getLsbD (23 - k % 24))) := by
  have hbit := frameBits_getElem? P d ⟨k / 24, Nat.div_lt_of_lt_mul hk⟩ ⟨23 - k % 24, Nat.lt_succ_of_le (Nat.sub_le _ _)⟩
  have hpos : 24 * (k / 24) + (24 - 1 - (23 - k % 24)) = k := by omega
  simpa only [referenceShape_wordW, hpos] using hbit

/-- Settles O37: symbol `k` is a bit of word `k div 24`, whose ones are in the red byte if its cell is lit. -/
theorem frameSymbolsByPosition : Obligations.FrameSymbolsByPosition := by
  refine ⟨fun S P d => ⟨frame_length P d, by simp [frame]⟩, fun P d hred => ⟨frame_length P d, ?_, fun k hk => ?_⟩⟩
  · have hlen : (frameBits P d).length = 600 := frameBits_length P d
    simp [frame, hlen]
  · have hlen : k < (frameBits P d).length := hk.trans_eq (frameBits_length P d).symm
    have hlow : 8 ≤ 23 - k % 24 ↔ k % 24 ≤ 15 := by omega
    have hhigh : 23 - k % 24 ≤ 15 ↔ 8 ≤ k % 24 := by omega
    rw [frame, List.getElem?_append_left hlen, frameBits_getElem?_reference P d hk, frameWord_getLsbD hred d _ (by omega)]
    simp only [hlow, hhigh, Bool.and_right_comm]

end Sys2Proof.Machine
end

section
/-! SUPPORT. The statements on RENDER and on the turns of the SPE (spec/44_serial_engine.md R72 to R77). -/

namespace Sys2Proof.Machine

variable {S : Config.Shape}

/-- Out of range RENDER answers 0, busy or not (R72). -/
theorem execOf_render_out_of_range {s : Shaped.State S} {d : BitVec 8} (hd : S.nGlyph ≤ d.toNat) :
    execOf (.render d) s = .next (respond 0 s) := by
  simp [execOf, execRender, digitInRange, Nat.not_lt.mpr hd]

/-- Settles O20: the word is RENDER's own, and an out-of-range digit is answered 0 before BUSY is looked at. -/
theorem renderOutOfRangeIsNoOp : Obligations.RenderOutOfRangeIsNoOp := by
  refine ⟨decode_encode_render, fun s d hd => ?_⟩
  rw [← execOf_eq_exec]
  exact execOf_render_out_of_range hd

/-- Settles O21: in IDLE the frame starts and the answer is 1. -/
theorem renderInIdleStartsFrame : Obligations.RenderInIdleStartsFrame := by
  intro s d h hidle
  rw [← execOf_eq_exec]
  exact execOf_render_idle h hidle

/-- Settles O22: a busy SPE holds an in-range RENDER, and a HOST turn runs it. -/
theorem renderWhileBusyIsHeld : Obligations.RenderWhileBusyIsHeld := by
  have held : ∀ (s : State) (d : BitVec 8), d.toNat < 10 → s.txst ≠ .idle → exec (.render d) s = .next s :=
    fun s d hd hb => (execOf_eq_exec _ s).symm.trans (execOf_render_held hd hb)
  refine ⟨held, fun s d rest ts hd hb hts hc => ?_⟩
  rw [step_cons s _ ts hts]
  exact (hostStep_legal (s := setTurns ts s) hc (decode_encode_render d)).trans (held (setTurns ts s) d hd hb)

/-- Settles O39: the SPE turn is `speLatch` in LATCH and nothing in IDLE. -/
theorem latchStepEndsGapAndIdleRests : Obligations.LatchStepEndsGapAndIdleRests := by
  intro s ts hts
  have hstep : step s = .next (speStep (setTurns ts s)) := step_cons s _ ts hts
  refine ⟨fun h => ?_, fun h => ?_⟩
  · rw [hstep, speStep_of_latch (s := setTurns ts s) h]
    rfl
  · rw [hstep, speStep_of_idle (s := setTurns ts s) h]
    rfl

/-- Where a SHIFT step leads, register by register (R75): the next bit of the word, the next word, or the latch gap. -/
theorem speShift_position (s : Shaped.State S) :
    (0 < s.bidx.val → (speShift s).txst = s.txst ∧ (speShift s).widx = s.widx ∧
      (speShift s).bidx.val = s.bidx.val - 1 ∧ (speShift s).lcnt = s.lcnt) ∧
    (s.bidx.val = 0 → s.widx.val < S.numPixels - 1 → (speShift s).txst = s.txst ∧
      (speShift s).widx.val = s.widx.val + 1 ∧ (speShift s).bidx.val = S.wordW - 1 ∧ (speShift s).lcnt = s.lcnt) ∧
    (s.bidx.val = 0 → s.widx.val = S.numPixels - 1 → (speShift s).txst = .latch ∧ (speShift s).widx = s.widx ∧
      (speShift s).bidx = s.bidx ∧ (speShift s).lcnt = gapCycles s.config) := by
  unfold speShift
  obtain ⟨_, hb, e⟩ | ⟨hw, hb, e⟩ | ⟨hb, hw, e⟩ := advance_cases (emit (.bit (currentBit s)) s) <;> rw [e] <;>
    rw [emit_bidx] at hb
  · exact ⟨fun _ => ⟨rfl, rfl, rfl, rfl⟩, fun h0 => absurd h0 hb.ne', fun h0 => absurd h0 hb.ne'⟩
  · have hlt : s.widx.val + 1 < S.numPixels := hw
    exact ⟨fun h0 => absurd hb h0.ne', fun _ _ => ⟨rfl, rfl, rfl, rfl⟩, fun _ hlast => by omega⟩
  · have hlast : s.widx.val = S.numPixels - 1 := hw
    exact ⟨fun h0 => absurd hb h0.ne', fun _ hlt => by omega, fun _ _ => ⟨rfl, rfl, rfl, rfl⟩⟩

/-- Settles O38: the SPE turn is `speShift` in SHIFT, which writes the SPE's registers and the line only. -/
theorem shiftStepSendsBitAndAdvances : Obligations.ShiftStepSendsBitAndAdvances := by
  intro s ts hts h
  have hstep : step s = .next (speShift (setTurns ts s)) := by
    rw [← speStep_of_shift (s := setTurns ts s) h]
    exact step_cons s _ ts hts
  obtain ⟨hbit, hword, hgap⟩ := speShift_position (setTurns ts s)
  rw [setTurns_txst, h] at hbit hword
  exact ⟨_, hstep, by rw [speShift_lt]; rfl, hbit, hword, hgap, by simp⟩

end Sys2Proof.Machine
end

section
/-! SUPPORT. The SPE in clock cycles (spec/44_serial_engine.md R76, R79, R80): one cycle of a bit period, one of the latch gap,
and the gap as a run of cycles. -/

namespace Sys2Proof.Machine

variable {S : Config.Shape}

/-- A cycle without reset of a busy SPE ends with the SPE's part, on a state with the SPE as it was (R26, R82). -/
theorem cycle_of_busy {io : Shaped.CycleIn S} {s : Shaped.State S} (hr : io.rstN = true) (hb : s.txst ≠ .idle) :
    ∃ u, EngineKept s u ∧ u.turns = s.turns ∧ cycle io s = .next (driveLine (speInCycle s u)) := by
  obtain ⟨u, e, _, presents, silent⟩ := cycle_next s hr
  have hu : EngineKept (beginCycle io s) u ∧ u.turns = (beginCycle io s).turns := by
    cases hv : io.cmdValid with
    | false => rw [silent hv]; exact ⟨.refl _, rfl⟩
    | true => exact ⟨hostStep_engineKept_of_busy hb (presents hv), hostStep_turns (presents hv)⟩
  obtain ⟨hkept, hturns⟩ := hu
  exact ⟨_, ((engineKept_beginCycle io s).trans hkept).trans (engineKept_debounceInCycle io _ u),
    (debounceInCycle_turns ..).trans hturns, e⟩

theorem speInCycle_shift {s u : Shaped.State S} (hu : EngineKept s u) (h : s.txst = .shift) :
    speInCycle s u = if s.pcnt + 1 < bitCycles s.config then { u with pcnt := s.pcnt + 1 } else speShift u := by
  simp only [speInCycle, h, hu.pcnt, hu.config]

theorem speInCycle_latch {s u : Shaped.State S} (hu : EngineKept s u) (h : s.txst = .latch) :
    speInCycle s u = if s.lcnt = 0 then speLatch u else { u with lcnt := s.lcnt - 1 } := by
  simp only [speInCycle, h, hu.lcnt]

/-- At the end of a cycle the line has the level of the state that the cycle leaves (R79). -/
theorem driveLine_dout_iff (s : Shaped.State S) :
    (driveLine s).dout = true ↔ (driveLine s).txst = .shift ∧
      (driveLine s).pcnt < highCycles (driveLine s).config (currentBit (driveLine s)) :=
  lineLevel_eq_true_iff s

/-- Outside SHIFT a cycle leaves the line low (R77, R80). -/
theorem driveLine_dout_of_ne_shift {s : Shaped.State S} (h : s.txst ≠ .shift) : (driveLine s).dout = false := by
  rw [← Bool.not_eq_true, driveLine_dout_iff]
  exact fun hd => h hd.1

/-- Settles O59: a cycle of a bit period moves the phase counter or ends the bit, and the line takes the level of the state
it leaves. -/
theorem shiftCycleFollowsBitWaveform : Obligations.ShiftCycleFollowsBitWaveform := by
  intro s io hr h
  obtain ⟨u, hu, _, e⟩ := cycle_of_busy hr (by rw [h]; decide)
  have hlevel := driveLine_dout_iff (speInCycle s u)
  rw [currentBit, takeTurn_config (x := .cycle io) e] at hlevel
  refine ⟨_, e, ?_, ?_, hlevel⟩
  · rw [driveLine_pcnt, speInCycle_shift hu h]
    by_cases hp : s.pcnt + 1 < bitCycles s.config
    · rw [if_pos hp, if_pos hp]
    · rw [if_neg hp, if_neg hp, speShift_pcnt]
  · rw [driveLine_lt, speInCycle_shift hu h]
    by_cases hp : s.pcnt + 1 < bitCycles s.config
    · rw [if_pos hp, if_pos hp, ← hu.lt]
    · rw [if_neg hp, if_neg hp, speShift_lt, hu.lt, hu.currentBit_eq]

/-- The cycle that starts with LCNT = 0 ends the gap (R76). -/
theorem step_latch_cycle_last {s : State} {io : CycleIn} {ts : List Turn} (hts : s.turns = .cycle io :: ts)
    (hr : io.rstN = true) (h : s.txst = .latch) (h0 : s.lcnt = 0) :
    ∃ t, step s = .next t ∧ t.txst = .idle ∧ t.lt = s.lt ++ [.latch] ∧ t.dout = false := by
  obtain ⟨u, hu, _, e⟩ := cycle_of_busy (s := setTurns ts s) hr (by rw [setTurns_txst, h]; decide)
  rw [speInCycle_latch hu h, setTurns_lcnt, if_pos h0] at e
  refine ⟨_, (step_cons s _ ts hts).trans e, rfl, ?_, driveLine_dout_of_ne_shift (by simp)⟩
  rw [driveLine_lt, speLatch_lt, hu.lt, setTurns_lt]

/-- A cycle of the gap that starts with LCNT above 0 takes one off it, with the line low (R75, R80). -/
theorem step_latch_cycle {s : State} {io : CycleIn} {ts : List Turn} (hts : s.turns = .cycle io :: ts)
    (hr : io.rstN = true) (h : s.txst = .latch) (h0 : s.lcnt ≠ 0) :
    ∃ t, step s = .next t ∧ t.txst = .latch ∧ t.lcnt = s.lcnt - 1 ∧ t.lt = s.lt ∧ t.dout = false ∧ t.turns = ts := by
  obtain ⟨u, hu, hturns, e⟩ := cycle_of_busy (s := setTurns ts s) hr (by rw [setTurns_txst, h]; decide)
  rw [speInCycle_latch hu h, setTurns_lcnt, if_neg h0] at e
  have hlatch : u.txst = .latch := hu.txst.trans h
  exact ⟨_, (step_cons s _ ts hts).trans e, hlatch, rfl, hu.lt,
    driveLine_dout_of_ne_shift (by simp [hlatch]), hturns⟩

/-- As many cycles as LCNT holds, or fewer, count it down with the line low and the trace as it is (R76, R80). -/
theorem run_latch_cycles {ios : List CycleIn} {s : State} (h : s.txst = .latch) (hr : ∀ io ∈ ios, io.rstN = true)
    (hts : s.turns = ios.map .cycle) (hle : ios.length ≤ s.lcnt) :
    ∃ t, core.run ios.length s = .next t ∧ t.txst = .latch ∧ t.lcnt = s.lcnt - ios.length ∧ t.lt = s.lt ∧
      (s.dout = false ∨ ios ≠ [] → t.dout = false) := by
  induction ios generalizing s with
  | nil => exact ⟨s, rfl, h, rfl, rfl, by simp⟩
  | cons io ios ih =>
    rw [List.length_cons] at hle
    obtain ⟨s', hstep, h', hl', hlt', hd', hts'⟩ :=
      step_latch_cycle hts (hr io (List.mem_cons_self ..)) h (by omega)
    obtain ⟨t, hrun, ht, hl, hlt, hd⟩ := ih h' (fun x hx => hr x (List.mem_cons_of_mem io hx)) hts' (by omega)
    exact ⟨t, (run_succ_of_step _ hstep).trans hrun, ht, by rw [List.length_cons]; omega, hlt.trans hlt',
      fun _ => hd (.inl hd')⟩

/-- The cycle after those that count LCNT down ends the gap (R76). -/
theorem run_latch_gap {ios : List CycleIn} {s : State} (h : s.txst = .latch) (hr : ∀ io ∈ ios, io.rstN = true)
    (hts : s.turns = ios.map .cycle) (hlen : ios.length = s.lcnt + 1) :
    ∃ t, core.run ios.length s = .next t ∧ t.txst = .idle ∧ t.lt = s.lt ++ [.latch] ∧ t.dout = false := by
  induction ios generalizing s with
  | nil => cases hlen
  | cons io ios ih =>
    rw [List.length_cons] at hlen
    have hr0 := hr io (List.mem_cons_self ..)
    by_cases h0 : s.lcnt = 0
    · obtain ⟨t, hstep, ht⟩ := step_latch_cycle_last hts hr0 h h0
      rw [h0, Nat.add_right_cancel_iff, List.length_eq_zero_iff] at hlen
      rw [hlen]
      exact ⟨t, run_succ_of_step 0 hstep, ht⟩
    · obtain ⟨s', hstep, h', hl', hlt', _, hts'⟩ := step_latch_cycle hts hr0 h h0
      obtain ⟨t, hrun, ht, hlt, hd⟩ := ih h' (fun x hx => hr x (List.mem_cons_of_mem io hx)) hts' (by omega)
      exact ⟨t, (run_succ_of_step _ hstep).trans hrun, ht, by rw [hlt, hlt'], hd⟩

/-- Settles O60: the cycles of the gap count LCNT down, and the one after them ends it. -/
theorem latchGapLastsItsCount : Obligations.LatchGapLastsItsCount := by
  intro s ios h hr hts
  refine ⟨fun hle => ?_, run_latch_gap h hr hts⟩
  obtain ⟨t, hrun, ht, hl, hlt, hd⟩ := run_latch_cycles h hr hts hle
  exact ⟨t, hrun, ht, hl, hlt, fun hne => hd (.inr hne)⟩

end Sys2Proof.Machine
end

section
/-! SUPPORT. The illegal words (spec/30_encoding.md R43; spec/60_exceptions.md R83): the two conditions of R43 on the word, and
the exception as a step. -/

namespace Sys2Proof

/-- The decoder rejects a word exactly where R43(a) or R43(b) holds of it. -/
theorem exists_decode_error_iff (w : Word) :
    (∃ e, decode w = .error e) ↔
      6 ≤ (w.extractLsb' 28 4).toNat ∨ ∃ r ∈ opcodeRows, r.opcode = w.extractLsb' 28 4 ∧ w &&& r.mask ≠ r.pattern := by
  obtain ⟨hopcode, hbits⟩ := decoderRejectsExactlyIllegalWords w
  rw [← hopcode, ← hbits]
  constructor
  · rintro ⟨e, h⟩
    cases e with
    | reservedOpcode => exact .inl h
    | reservedBit => exact .inr h
  · rintro (h | h)
    · exact ⟨_, h⟩
    · exact ⟨_, h⟩

/-- A word that matches a row of R39 is legal. -/
theorem legalWord_of_accepts {w : Word} {r : OpcodeRow} (hr : r ∈ opcodeRows) (h : r.accepts w = true) :
    legalWord w = true := by
  obtain ⟨i, hi⟩ := decode_isOk_of_accepts hr h
  rw [← encode_of_decode hi]
  exact legalWord_encode i

end Sys2Proof

namespace Sys2Proof.Machine

variable {S : Config.Shape}

@[simp] theorem clockBlock_cmds (io : Shaped.CycleIn S) (s0 s : Shaped.State S) :
    (clockBlock io s0 s).cmds = s.cmds := by simp [clockBlock]

/-- A HOST turn on an illegal word takes the exception (R83). -/
theorem step_host_illegal {s : State} {w : Word} {rest : List Word} {ts : List Turn} {e : IllegalReason}
    (hts : s.turns = .host :: ts) (hc : s.cmds = w :: rest) (hd : decode w = .error e) :
    step s = .next (raiseIllegalCommand (setTurns ts s)) := by
  rw [step_cons s _ ts hts]
  exact hostStep_illegal (s := setTurns ts s) hc hd

/-- A HOST step on a legal word goes on and leaves ILL alone (R16, R83). -/
theorem hostStep_ill_of_legalWord {s : State} {w : Word} {rest : List Word} (hc : s.cmds = w :: rest)
    (hl : legalWord w = true) : ∃ t, hostStep s = .next t ∧ t.ill = s.ill := by
  obtain ⟨t, ht⟩ := hostStep_next s
  refine ⟨t, ht, (hostStep_ill ht).resolve_left fun illegal => ?_⟩
  obtain ⟨w', hw', hl'⟩ := illegal.presented
  rw [hc, List.head?_cons, Option.some_inj] at hw'
  rw [← hw', hl] at hl'
  cases hl'

/-- A cycle without reset that presents an illegal word takes the exception, and then the rest of the block runs (R26, R83). -/
theorem step_cycle_illegal {s : State} {w : Word} {rest : List Word} {io : CycleIn} {ts : List Turn} {e : IllegalReason}
    (hts : s.turns = .cycle io :: ts) (hr : io.rstN = true) (hv : io.cmdValid = true) (hc : s.cmds = w :: rest)
    (hd : decode w = .error e) :
    step s = .next
      (clockBlock io (beginCycle io (setTurns ts s)) (raiseIllegalCommand (beginCycle io (setTurns ts s)))) := by
  rw [step_cons s _ ts hts]
  exact cycle_of_cmdValid hr hv (hostStep_illegal (by simpa using hc) hd)

end Sys2Proof.Machine
end

section
/-! SUPPORT. The statements on the one exception, IllegalCommand (spec/60_exceptions.md R83). -/

namespace Sys2Proof.Machine

/-- Settles O12: an illegal word takes the exception, which is the whole step; a word of a row of R39 is legal, and only an
illegal one touches ILL. -/
theorem illegalWordSetsIllAndRespondsZero : Obligations.IllegalWordSetsIllAndRespondsZero := by
  refine ⟨fun s w rest ts hts hc hw => ?_, fun s w rest ts hts hc ⟨r, hr, hmatch⟩ => ?_, statusWord_bit4⟩
  · obtain ⟨e, hd⟩ := (exists_decode_error_iff w).mpr hw
    rw [step_host_illegal hts hc hd]
    simp [raiseIllegalCommand, respond, setTurns, hc]
  · rw [step_cons s _ ts hts]
    exact hostStep_ill_of_legalWord (s := setTurns ts s) hc (legalWord_of_accepts hr (beq_iff_eq.mpr hmatch))

/-- Settles O50: the HOST's part of the cycle takes the exception, and the rest of the block keeps ILL, the response and the
words. -/
theorem illegalWordInCycleSetsIll : Obligations.IllegalWordInCycleSetsIll := by
  intro s w rest io ts hts hr hv hc hl
  obtain ⟨e, hd⟩ := (legalWord_eq_false_iff w).mp hl
  exact ⟨_, step_cycle_illegal hts hr hv hc hd, by simp, by simp, by simp, by simp, by simp [hc]⟩

end Sys2Proof.Machine
end

section
/-! SUPPORT. Runs (spec/00_scope.md R7): what every turn or every step keeps, a run keeps. -/

namespace Sys2Proof.Machine

variable {S : Config.Shape}

/-- What each turn of a schedule keeps, the schedule keeps. -/
theorem runTurns_preserves {p : Shaped.State S → Prop} {ts : List (Shaped.Turn S)} {s u : Shaped.State S}
    (keeps : ∀ x ∈ ts, ∀ s t, p s → takeTurn x s = .next t → p t) (hs : p s) (h : runTurns ts s = .next u) : p u := by
  induction ts generalizing s with
  | nil => cases h; exact hs
  | cons x xs ih =>
    obtain ⟨t, ht⟩ := takeTurn_goes_on x s
    simp only [runTurns, ht] at h
    exact ih (fun y hy => keeps y (List.mem_cons_of_mem x hy)) (keeps x (List.mem_cons_self ..) s t hs ht) h

/-- What each step keeps, a run keeps. -/
theorem run_preserves {p : State → Prop} (keeps : ∀ s t, p s → step s = .next t → p t) {k : Nat} {s t : State}
    (hs : p s) (h : core.run k s = .next t) : p t := by
  induction k generalizing s with
  | zero => cases h; exact hs
  | succ k ih =>
    obtain ⟨u, hu, hrun⟩ := run_succ_eq_next h
    exact ih (keeps s u hs hu) hrun

end Sys2Proof.Machine
end

section
/-! SUPPORT. Reset (spec/70_reset_and_hazards.md R93, R94): the reset cycle as a step, and the first symbol on the line after
it. -/

namespace Sys2Proof.Machine

variable {S : Config.Shape}

/-- A cycle with `rst_n = 0` resets the block and runs no command (R93). -/
theorem cycle_of_reset {io : Shaped.CycleIn S} (s : Shaped.State S) (hr : io.rstN = false) :
    cycle io s = .next (resetBlock (beginCycle io s)) := by
  simp [cycle, hr]

/-- A step whose turn is a cycle in reset. -/
theorem step_cycle_reset {s : State} {io : CycleIn} {ts : List Turn} (hts : s.turns = .cycle io :: ts)
    (hr : io.rstN = false) : step s = .next (resetBlock (beginCycle io (setTurns ts s))) :=
  (step_cons s _ ts hts).trans (cycle_of_reset _ hr)

/-- The reset of the machine right after reset is that state itself. -/
theorem resetBlock_reset : resetBlock State.reset = State.reset := rfl

/-- A framed line has nothing on it or `Latch` first (R94). -/
theorem LineFramed.empty_or_latch_first {s : Shaped.State S} (hs : LineFramed s) :
    s.lt = [] ∨ s.lt.head? = some .latch := by
  unfold LineFramed at hs
  split at hs
  · obtain ⟨_, h⟩ := hs
    exact .inr (by rw [h]; rfl)
  · obtain ⟨_, h⟩ := hs
    exact .inr (by rw [h]; rfl)
  · obtain h | ⟨_, h⟩ := hs
    · exact .inl h
    · exact .inr (by rw [h]; rfl)

end Sys2Proof.Machine
end

section
/-! SUPPORT. A channel in cycles that present no command (spec/41_debouncer.md R52 to R54), and its line held low from reset on
(spec/70_reset_and_hazards.md R95). -/

namespace Sys2Proof.Shaped

variable {S : Config.Shape}

/-- What a cycle without reset and without a command leaves in a channel, at time `n` and with this level on the pin: an edge,
if one is detected and passes the test of the window, and the sampling of the line (R26, R52, R54). -/
def Channel.afterCycle (window : Nat) (c : Channel S) (n : S.Stamp) (pin : Bool) : Channel S :=
  Channel.sample (if c.falling = true ∧ window < (n - c.ts).toNat then c.latchEdge n else c) pin

theorem Channel.afterCycle_of_not_falling {c : Channel S} (h : c.falling = false) (window : Nat) (n : S.Stamp)
    (pin : Bool) : c.afterCycle window n pin = c.sample pin := by
  simp [afterCycle, h]

theorem Channel.afterCycle_of_falling {c : Channel S} (h : c.falling = true) (window : Nat) (n : S.Stamp) (pin : Bool) :
    c.afterCycle window n pin = Channel.sample (if window < (n - c.ts).toNat then c.latchEdge n else c) pin := by
  simp [afterCycle, h]

/-- A falling edge on a channel that is not pending sets PEND and writes TS exactly if it passes the test (R54). -/
theorem Channel.afterCycle_pend_ts_of_falling {c : Channel S} (h : c.falling = true) (hp : c.pend = false) (window : Nat)
    (n : S.Stamp) (pin : Bool) :
    (c.afterCycle window n pin).pend = decide (window < (n - c.ts).toNat) ∧
      (c.afterCycle window n pin).ts = if window < (n - c.ts).toNat then n else c.ts := by
  rw [afterCycle_of_falling h]
  by_cases hw : window < (n - c.ts).toNat
  · rw [if_pos hw, if_pos hw, decide_eq_true hw]
    exact ⟨rfl, rfl⟩
  · rw [if_neg hw, if_neg hw, decide_eq_false hw]
    exact ⟨hp, rfl⟩

/-- A falling edge lasts one cycle: the output that was low becomes LVL (R15, R52). -/
theorem Channel.falling_afterCycle {c : Channel S} (h : c.falling = true) (window : Nat) (n : S.Stamp) (pin : Bool) :
    (c.afterCycle window n pin).falling = false := by
  have hlow : c.syncOut = false := by
    rw [falling, Bool.and_eq_true, Bool.not_eq_true'] at h
    exact h.2
  have hlvl : (c.afterCycle window n pin).lvl = c.syncOut := by
    rw [afterCycle_of_falling h]
    split <;> rfl
  rw [falling, hlvl, hlow, Bool.false_and]

end Sys2Proof.Shaped

namespace Sys2Proof.Machine

/-- A step that is such a cycle uses its turn up and leaves the channel as `afterCycle` says. -/
theorem step_cycle_silent {s : State} {io : CycleIn} {ts : List Turn} (b : Button) (hts : s.turns = .cycle io :: ts)
    (hr : io.rstN = true) (hv : io.cmdValid = false) :
    ∃ t, step s = .next t ∧ t.turns = ts ∧ t.config = s.config ∧
      t.chan b = (s.chan b).afterCycle s.config.debounceMs io.nowMs (io.btnN b) := by
  obtain ⟨t, ht, hchan⟩ := cycle_chan_eq (setTurns ts s) b hr
  have hstep : step s = .next t := (step_cons s _ ts hts).trans ht
  obtain ⟨t', ht', hturns, _⟩ := step_linesSampled hts hr
  cases hstep.symm.trans ht'
  refine ⟨t, hstep, hturns, configurationNeverChanges s t hstep, ?_⟩
  rw [hchan, hv, chan_setTurns, setTurns_config]
  simp [Shaped.Channel.afterCycle]

/-- Such cycles one after the other. -/
theorem run_cycles_silent (b : Button) (ios : List CycleIn) {s : State} {ts : List Turn}
    (hts : s.turns = ios.map .cycle ++ ts) (hquiet : ∀ io ∈ ios, io.rstN = true ∧ io.cmdValid = false) :
    ∃ t : State, core.run ios.length s = .next t ∧
      t.chan b = ios.foldl (fun c io => c.afterCycle s.config.debounceMs io.nowMs (io.btnN b)) (s.chan b) := by
  induction ios generalizing s with
  | nil => exact ⟨s, rfl, rfl⟩
  | cons io ios ih =>
    obtain ⟨⟨hr, hv⟩, hrest⟩ := List.forall_mem_cons.mp hquiet
    obtain ⟨u, hu, huts, hcfg, hchan⟩ := step_cycle_silent b hts hr hv
    obtain ⟨t, ht, hfold⟩ := ih huts hrest
    exact ⟨t, (run_succ_of_step _ hu).trans ht, by rw [hfold, hcfg, hchan, List.foldl_cons]⟩

/-- A falling edge after a sampling, in the two-stage synchroniser of the reference shape: its second stage was high before
it and its first stage low (R15, R52). -/
theorem falling_sample_reference (c : Shaped.Channel referenceShape) (pin : Bool) :
    (c.sample pin).falling = (c.sync.getLsbD 1 && !c.sync.getLsbD 0) := by
  obtain ⟨_, hsync, hlvl⟩ := sample_line_reference c pin
  rw [Shaped.Channel.falling, Shaped.Channel.syncOut, hlvl]
  exact congrArg (c.sync.getLsbD 1 && !·) hsync

/-- No falling edge at reset: the synchroniser's output is high (R93). -/
theorem falling_channelReset {S : Config.Shape} (P : Config.Params S) : (channelReset P).falling = false := by
  have hpos := S.syncStages_pos
  simp [Shaped.Channel.falling, Shaped.Channel.syncOut, channelReset, hpos]

/-- Two low samples after reset bring the falling edge, the first one alone none (R95). -/
theorem falling_sample_channelReset (P : Params) :
    ((channelReset P).sample false).falling = false ∧ (((channelReset P).sample false).sample false).falling = true := by
  obtain ⟨first, second, _⟩ := sample_line_reference (channelReset P) false
  rw [falling_sample_reference, falling_sample_reference, first, second]
  simp [channelReset]

/-- A line held low from reset on gives one falling edge, in the third cycle (R95). -/
theorem afterCycle_held_from_reset (P : Params) (window : Nat) (n1 n2 n3 n4 : Stamp) :
    let c := [n1, n2, n3, n4].foldl (fun c n => c.afterCycle window n false) (channelReset P)
    c.pend = decide (window < (n3 - P.tsReset).toNat) ∧
      c.ts = if window < (n3 - P.tsReset).toNat then n3 else P.tsReset := by
  obtain ⟨rests2, falls3⟩ := falling_sample_channelReset P
  have rests4 := Shaped.Channel.falling_afterCycle falls3 window n3 false
  simp only [List.foldl_cons, List.foldl_nil]
  rw [Shaped.Channel.afterCycle_of_not_falling (falling_channelReset P), Shaped.Channel.afterCycle_of_not_falling rests2,
    Shaped.Channel.afterCycle_of_not_falling rests4]
  exact Shaped.Channel.afterCycle_pend_ts_of_falling falls3 rfl window n3 false

end Sys2Proof.Machine
end

section
/-! SUPPORT. The SPE in IDLE (spec/70_reset_and_hazards.md R97): no turn but the HOST's or a reset leaves it. -/

namespace Sys2Proof.Machine

variable {S : Config.Shape}

/-- The SPE rests in a cycle that starts in IDLE (R77). -/
theorem speInCycle_of_idle {s0 : Shaped.State S} (s : Shaped.State S) (h : s0.txst = .idle) : speInCycle s0 s = s := by
  simp only [speInCycle, h]

/-- A turn of the SPE, of a channel or of CLOCK, and a cycle without reset that presents no command, stay in IDLE (R77). -/
theorem takeTurn_stays_idle {x : Shaped.Turn S} {s t : Shaped.State S}
    (hx : x = .spe ∨ (∃ b, x = .btn b) ∨ (∃ n, x = .clock n) ∨
      ∃ io, x = .cycle io ∧ io.rstN = true ∧ io.cmdValid = false)
    (hidle : s.txst = .idle) (h : takeTurn x s = .next t) : t.txst = .idle := by
  obtain rfl | ⟨b, rfl⟩ | ⟨n, rfl⟩ | ⟨io, rfl, hr, hv⟩ := hx
  · cases h
    rwa [speStep_of_idle hidle]
  · cases h
    exact (engineKept_edge b s.now s).txst.trans hidle
  · cases h
    exact hidle
  · cases (cycle_of_not_cmdValid hr hv).symm.trans h
    simp [clockBlock, speInCycle_of_idle, hidle]

end Sys2Proof.Machine
end

section
/-! SUPPORT. The statements on reset and the hazards (spec/70_reset_and_hazards.md). -/

namespace Sys2Proof.Machine

/-- Settles O41: bit 2 of the status word is BUSY, every turn of the schedule stays in IDLE, and in IDLE an in-range RENDER
is accepted. -/
theorem renderAfterIdleStatusIsNotHeld : Obligations.RenderAfterIdleStatusIsNotHeld := by
  intro s u d ts hstatus hd hts hrun
  have hidle : s.txst = .idle := by
    rw [statusWord_bit2] at hstatus
    simpa [Shaped.State.busy] using hstatus
  have hu : u.txst = .idle := runTurns_preserves (p := fun s => s.txst = .idle)
    (fun x hx _ _ hs h => takeTurn_stays_idle (hts x hx) hs h) hidle hrun
  rw [← execOf_eq_exec]
  exact ⟨_, execOf_render_idle hd hu, rfl, rfl⟩

/-- Settles O48: the reset meets the machine's invariant, which every step keeps, and a framed line begins with `Latch`. -/
theorem firstSymbolAfterResetIsLatch : Obligations.FirstSymbolAfterResetIsLatch := by
  intro s t ts cs k hrun
  have hreset : MachineInvariant { resetBlock s with turns := ts, cmds := cs } :=
    machineInvariant_resetBlock { s with turns := ts, cmds := cs }
  exact (run_preserves everyStepKeepsInvariant hreset hrun).framed.empty_or_latch_first

/-- Settles O58: the reset edge gives the channel its reset value, and the four cycles after it hold the line low. -/
theorem buttonHeldThroughResetIsOneEdge : Obligations.ButtonHeldThroughResetIsOneEdge := by
  refine ⟨rfl, rfl, fun s r i j k l ts hts hr hheld => ?_⟩
  have hpin : ∀ io ∈ [i, j, k, l], io.btnN .A = false := fun io hio => (hheld io hio).2.1
  obtain ⟨t, hrun, hchan⟩ := run_cycles_silent .A [i, j, k, l] (s := resetBlock (beginCycle r (setTurns _ s))) (ts := ts) rfl
    fun io hio => ⟨(hheld io hio).1, (hheld io hio).2.2⟩
  refine ⟨t, (run_succ_of_step 4 (step_cycle_reset hts hr)).trans hrun, ?_⟩
  have heldA : t.chA = [i.nowMs, j.nowMs, k.nowMs, l.nowMs].foldl
      (fun c n => c.afterCycle s.config.debounceMs n false) (channelReset s.config) := by
    rw [← chan_A, hchan]
    simp [hpin]
  rw [heldA]
  exact afterCycle_held_from_reset s.config s.config.debounceMs i.nowMs j.nowMs k.nowMs l.nowMs

/-- Settles O47: the machine right after reset is a state after a reset edge, its own. -/
theorem resetMeetsInvariant : Obligations.ResetMeetsInvariant := by
  unfold Obligations.ResetMeetsInvariant
  rw [← resetBlock_reset]
  exact machineInvariant_resetBlock _

/-- Settles O54, register by register. -/
theorem resetStateValues : Obligations.ResetStateValues := by
  refine ⟨fun b => ?_, rfl, rfl, rfl, rfl, rfl, rfl, rfl, rfl, rfl, rfl, ?_, rfl⟩
  · cases b <;> rfl
  · decide

/-- Settles O55: the step is the reset of the block at the start of the cycle. -/
theorem resetCycleResetsBlock : Obligations.ResetCycleResetsBlock :=
  fun _ _ _ hts hr => step_cycle_reset hts hr

end Sys2Proof.Machine
end
